-- ==== Sys2Proof/Word.lean ====
section
/-! DEFINITION. The two word types of the machine: 8-bit registers and memory bytes, 16-bit PC, SP and addresses
(spec/00_scope.md R5: REG_WIDTH 8, ADDR_WIDTH 16, PORT_WIDTH 8). All their arithmetic wraps (R142), which is that
of `BitVec`. -/

namespace Sys2Proof

/-- An 8-bit value: a register, a latch, a memory byte, a port number (R5, R10, R11). -/
abbrev Byte := BitVec 8

/-- A 16-bit value: PC, SP, a register pair, a memory address (R5, R12, R15, R17). -/
abbrev Word := BitVec 16

end Sys2Proof
end

