-- ==== Sys2Proof/Config.lean ====
section
/-! DEFINITION. What is fixed for a machine before its first Step (spec/00_scope.md R5, spec/10_state.md R33, R34), the
events on the port boundary, and the one free value, what `ReadPort` answers (R5 `PortIn`, R245). The Opcode Table, the
rest of the configuration, is a constant (Decode.lean). -/

namespace Sys2Proof

/-- The configuration of one machine (R5, R34). State carries it, so that a claim is about every value of it, and no
Step changes it (log 4). -/
structure Config where
  /-- `MEM_CAPACITY`: memory has the indices 0 to `memCapacity - 1` (R5, R40). -/
  memCapacity : Nat
  /-- `READ_PORT_BOUND`: the host registered a `ReadPort` hook (R5, R34). -/
  readPortBound : Bool
  /-- `WRITE_PORT_BOUND`: the host registered a `WritePort` hook (R5, R34). -/
  writePortBound : Bool
deriving DecidableEq, Repr

/-- `MEM_CAPACITY` is an integer 1 to 65536; a value above that "is refused as meaningless"
(92_eei_decisions.md D17, log 25). -/
abbrev Config.wf (c : Config) : Prop := 1 ≤ c.memCapacity ∧ c.memCapacity ≤ 65536

/-- One call of a port hook, as the host sees it (R245, R246). -/
inductive PortEvent where
  /-- `ReadPort(port)` was called and answered `answer`. -/
  | read (port answer : Byte)
  /-- `WritePort(port, value)` was called. -/
  | write (port value : Byte)
deriving DecidableEq, Repr

/-- The free value `PortIn` (R5, R245, U8): what `ReadPort port` answers after the hook calls `history`. It has no body,
so nothing can be proved of its value; a history grows with every call, so two calls never have the same argument and
the answer "may differ from one IN to the next on the same port" (log 5). -/
opaque Config.portIn : List PortEvent → Byte → Byte

end Sys2Proof
end

