-- ==== Sys2Proof/Machine/State.lean ====
section
/-! DEFINITION. The state of the machine as plain data (spec/10_state.md), the reasons a step can stop, and the state
after construction (R35, R290). -/

namespace Sys2Proof.Machine

/-- The seven general registers (R10). -/
structure Regs where
  a : Byte
  b : Byte
  c : Byte
  d : Byte
  e : Byte
  h : Byte
  l : Byte
deriving DecidableEq, Repr

/-- The five condition flags (R18). -/
structure Flags where
  sign : Bool
  zero : Bool
  auxCarry : Bool
  parity : Bool
  carry : Bool
deriving DecidableEq, Repr

/-- The Memory array (R30, R31): (address, byte) pairs in rising order of address. An address that is not listed reads as
`Memory.unlisted`, and no listed byte is that byte, so equal memories are equal lists. -/
abbrev Memory := List Host.Cell

/-- What an address that no entry lists reads as. DESIGN CHOICE (log 1): the spec leaves the content of memory that no
`Load` and no store wrote open (`MEM_INIT`, R35); unsafe. -/
def Memory.unlisted : Byte := 0x00

/-- The canonical form: addresses strictly rising, no entry equal to what an unlisted address reads as. -/
abbrev Memory.wf (m : Memory) : Prop :=
  m.Pairwise (fun x y => x.1 < y.1) ∧ ∀ x ∈ m, x.2 ≠ Memory.unlisted

/-- Everything the spec gives the machine (R10 to R35), its configuration (R5), and what crosses the host interface. -/
structure State where
  /-- A, B, C, D, E, H, L (R10). -/
  regs : Regs
  /-- The operand latch W: the third byte of the last fetched 3-byte instruction (R11). -/
  w : Byte
  /-- The operand latch Z: the second byte of the last fetched 2-byte or 3-byte instruction (R11). -/
  z : Byte
  /-- The program counter (R15, R16). -/
  pc : Word
  /-- The stack pointer (R17). -/
  sp : Word
  /-- The five condition flags (R18). -/
  flags : Flags
  /-- INTE, the interrupt-enable flag (R26). -/
  inte : Bool
  /-- The pending-interrupt slot (R27). -/
  pending : Option Byte
  /-- Memory (R31). -/
  mem : Memory
  /-- MEM_CAPACITY and the presence of the two hooks (R5, R33, R34; log 4). -/
  config : Config
  /-- The model's own: answers the environment has lined up for the next `ReadPort` calls, oldest first (R245; log 5). -/
  portAnswers : List Byte
  /-- The model's own: the hook calls made so far, oldest first (R245, R246; log 6). -/
  portEvents : List PortEvent
  /-- The model's own: the number the last Step returned (R264, R298; log 7). -/
  cycles : Nat
deriving DecidableEq, Repr

/-- The three faults, the machine's only synchronous exceptions (R260 to R263). A faulting Step changes nothing and the
machine takes no further Step (R263, log 9). All three are safe: the machine stops where the hardware does. -/
inductive Fault where
  /-- `OutOfBoundsAccess`: a fetch or a data access at an address at or above `MEM_CAPACITY` (R260). Raised by
  `State.readByte` and `State.writeByte`, and to the host by `State.load`. Safe. -/
  | outOfBoundsAccess
  /-- `UnimplementedOpcode`: HLT or one of the twelve undefined bytes is dispatched (R261). Raised by `execHlt` and
  `execUndefined`. Safe. -/
  | unimplementedOpcode
  /-- `MissingPortHandler`: IN with no `ReadPort` hook, OUT with no `WritePort` hook (R262). Raised by `State.portRead` and
  `State.portWrite`. Safe. -/
  | missingPortHandler
deriving DecidableEq, Repr

/-- Why the model gives no meaning. Every instruction of the table has one, so nothing raises this today. -/
inductive Refusal where
  /-- `exec`'s arm for an instruction that has no meaning yet, named as spec/opcode_table.json names it. Safe. -/
  | notModelled (mnemonic : String)
deriving DecidableEq, Repr

/-- `RESET_REGS` (R5, R35): the values that construction leaves open. -/
structure ResetRegs where
  regs : Regs
  w : Byte
  z : Byte
  sp : Word
  flags : Flags
deriving DecidableEq, Repr

/-- The state right after construction (R35, R290) on a memory, for any value of `RESET_REGS`, of `MEM_INIT` (the memory
`mem`) and of the configuration: PC = 0000, INTE false, the pending slot empty. -/
def State.construct (config : Config) (r : ResetRegs) (mem : Memory) : State where
  regs := r.regs
  w := r.w
  z := r.z
  pc := 0x0000
  sp := r.sp
  flags := r.flags
  inte := false
  pending := none
  mem := mem
  config := config
  portAnswers := []
  portEvents := []
  cycles := 0

/-- The value this model names for `RESET_REGS`: all zero, all false. DESIGN CHOICE (log 2), unsafe. -/
def ResetRegs.zero : ResetRegs where
  regs := ⟨0, 0, 0, 0, 0, 0, 0⟩
  w := 0
  z := 0
  sp := 0
  flags := ⟨false, false, false, false, false⟩

/-- The configuration this model names for reset: the default capacity (R5) and both hooks registered, as the spec's test
vectors take it. DESIGN CHOICE (log 4), unsafe. -/
def resetConfig : Config where
  memCapacity := 65536
  readPortBound := true
  writePortBound := true

/-- The machine right after reset, which is construction (R290), with the values the log names for what R35 leaves open. -/
def State.reset : State := State.construct resetConfig ResetRegs.zero []

end Sys2Proof.Machine
end

