-- ==== Sys2Proof/Syntax.lean ====
section
/-! DEFINITION. The instructions as terms (spec/30_encoding.md): the operand codes of R62 to R64 and R72 as inductive
types, and `Instr`, one constructor per mnemonic of spec/opcode_table.json with its operands. -/

namespace Sys2Proof

/-- The seven general registers (R10); the seven register codes of R62 other than 110. -/
inductive Reg where
  | b | c | d | e | h | l | a
deriving DecidableEq, Repr

/-- What a 3-bit `ddd` or `sss` code selects (R62): a register, or M, the memory byte at address HL (code 110). -/
inductive Operand where
  | reg (r : Reg)
  | m
deriving DecidableEq, Repr

/-- The register pairs that an instruction can name (R12, R63); WZ is a pair too, but no instruction names it (R11). -/
inductive Pair where
  | bc | de | hl
deriving DecidableEq, Repr

/-- What `pp` selects in LXI, INX, DCX, DAD (R63, first row): BC, DE, HL, or SP (code 11). -/
inductive Wide where
  | pair (p : Pair)
  | sp
deriving DecidableEq, Repr

/-- What `pp` selects in PUSH and POP (R63, second row): BC, DE, HL, or PSW (code 11). -/
inductive StackReg where
  | pair (p : Pair)
  | psw
deriving DecidableEq, Repr

/-- The address pair of STAX and LDAX (R63, third row): BC or DE. -/
inductive IndexPair where
  | bc | de
deriving DecidableEq, Repr

/-- The eight branch conditions, in the order of their codes 000 to 111 (R64). -/
inductive Cond where
  | nz | z | nc | c | po | pe | p | m
deriving DecidableEq, Repr

/-- The twelve undefined opcode bytes (R65, R242), each named by its byte. -/
inductive UndefinedByte where
  | x08 | x10 | x18 | x20 | x28 | x30 | x38 | xCB | xD9 | xDD | xED | xFD
deriving DecidableEq, Repr

/-- One constructor per mnemonic of spec/opcode_table.json. The immediate `d8` is the instruction's second byte, `d16`
and `a16` its second (low) and third (high) bytes (R61). -/
inductive Instr where
  -- data movement, R100 to R111
  | mov (dst src : Operand)
  | mvi (dst : Operand) (d8 : Byte)
  | lxi (dst : Wide) (d16 : Word)
  | stax (p : IndexPair)
  | ldax (p : IndexPair)
  | shld (a16 : Word)
  | lhld (a16 : Word)
  | sta (a16 : Word)
  | lda (a16 : Word)
  -- arithmetic, R122 to R141
  | add (src : Operand)
  | adc (src : Operand)
  | sub (src : Operand)
  | sbb (src : Operand)
  | adi (d8 : Byte)
  | aci (d8 : Byte)
  | sui (d8 : Byte)
  | sbi (d8 : Byte)
  | inr (dst : Operand)
  | dcr (dst : Operand)
  | inx (dst : Wide)
  | dcx (dst : Wide)
  | dad (src : Wide)
  | daa
  -- logical and compare, R151 to R165
  | ana (src : Operand)
  | xra (src : Operand)
  | ora (src : Operand)
  | cmp (src : Operand)
  | ani (d8 : Byte)
  | xri (d8 : Byte)
  | ori (d8 : Byte)
  | cpi (d8 : Byte)
  | cma
  | stc
  | cmc
  -- rotates, R170 to R173
  | rlc
  | rrc
  | ral
  | rar
  -- branch, call, return, restart, R183 to R214
  | jmp (a16 : Word)
  | jnz (a16 : Word)
  | jz (a16 : Word)
  | jnc (a16 : Word)
  | jc (a16 : Word)
  | jpo (a16 : Word)
  | jpe (a16 : Word)
  | jp (a16 : Word)
  | jm (a16 : Word)
  | call (a16 : Word)
  | cnz (a16 : Word)
  | cz (a16 : Word)
  | cnc (a16 : Word)
  | cc (a16 : Word)
  | cpo (a16 : Word)
  | cpe (a16 : Word)
  | cp (a16 : Word)
  | cm (a16 : Word)
  | ret
  | rnz
  | rz
  | rnc
  | rc
  | rpo
  | rpe
  | rp
  | rm
  | pchl
  | rst (n : Fin 8)
  -- stack and exchange, R220 to R226
  | push (src : StackReg)
  | pop (dst : StackReg)
  | xchg
  | xthl
  | sphl
  -- input/output and control, R240 to R249
  | inp (port : Byte)
  | out (port : Byte)
  | ei
  | di
  | nop
  | hlt
  | undefined (byte : UndefinedByte)
deriving DecidableEq, Repr

end Sys2Proof
end

