-- ==== Sys2Proof/Machine/Flags.lean ====
section
/-! DEFINITION. Every flag computation of the spec: parity and `setSZP` (spec/10_state.md R21, R22), the packed Flags byte
(R19, R20, R23), `add8`, `sub8`, increments, DAD, DAA (spec/41_arithmetic.md), `logic8` (spec/42_logical.md R150) and the
rotates (spec/43_rotate.md). Sums and differences are exact numbers narrowed at the end (R120, R142). -/

namespace Sys2Proof.Machine

/-- A flag in arithmetic counts as 1 when true and 0 when false (spec/00_scope.md section 6). -/
def bitValue (b : Bool) : Nat := if b then 1 else 0

/-- The low nibble `v[3:0]` as a number. -/
def lowNibble (v : Byte) : Nat := v.toNat % 16

/-- The high nibble `v[7:4]` as a number. -/
def highNibble (v : Byte) : Nat := v.toNat / 16

/-- The number of bits set in a byte. -/
def onesIn (v : Byte) : Nat :=
  bitValue v[0] + bitValue v[1] + bitValue v[2] + bitValue v[3]
    + bitValue v[4] + bitValue v[5] + bitValue v[6] + bitValue v[7]

/-- `parity(v)`: true iff the number of bits set is even (R21). -/
def parity (v : Byte) : Bool := onesIn v % 2 == 0

/-- `setSZP(v)` (R22): Sign, Zero and Parity from an 8-bit result, the other two flags kept. -/
def setSZP (v : Byte) (f : Flags) : Flags :=
  { f with sign := v[7], zero := v == 0, parity := parity v }

/-- The packed Flags byte, read (R19, R20): bit 1 is 1, bits 3 and 5 are 0. -/
def packFlags (f : Flags) : Byte :=
  BitVec.ofBool f.sign ++ BitVec.ofBool f.zero ++ 0b0#1 ++ BitVec.ofBool f.auxCarry ++ 0b0#1 ++ BitVec.ofBool f.parity
    ++ 0b1#1 ++ BitVec.ofBool f.carry

/-- The packed Flags byte, written (R23): bits 5, 3 and 1 are ignored. -/
def unpackFlags (b : Byte) : Flags where
  sign := b[7]
  zero := b[6]
  auxCarry := b[4]
  parity := b[2]
  carry := b[0]

/-- `add8(a, b, cin)` (R120): the result and all five flags. -/
def add8 (a b : Byte) (cin : Bool) (f : Flags) : Byte × Flags :=
  let sum := a.toNat + b.toNat + bitValue cin
  let res := BitVec.ofNat 8 sum
  (res, setSZP res { f with
    carry := decide (sum > 0xFF)
    auxCarry := decide (lowNibble a + lowNibble b + bitValue cin > 0xF) })

/-- `sub8(a, b, bin)` (R121): the result and all five flags; Carry and AuxCarry are borrows. -/
def sub8 (a b : Byte) (bin : Bool) (f : Flags) : Byte × Flags :=
  let res := a - b - BitVec.ofNat 8 (bitValue bin)
  (res, setSZP res { f with
    carry := decide (b.toNat + bitValue bin > a.toNat)
    auxCarry := decide (lowNibble b + bitValue bin > lowNibble a) })

/-- INR's result and flags (R134): Carry is not written. -/
def inc8 (v : Byte) (f : Flags) : Byte × Flags :=
  let res := v + 1
  (res, setSZP res { f with auxCarry := lowNibble v == 0xF })

/-- DCR's result and flags (R136): Carry is not written. -/
def dec8 (v : Byte) (f : Flags) : Byte × Flags :=
  let res := v - 1
  (res, setSZP res { f with auxCarry := lowNibble v == 0x0 })

/-- `logic8(res)` (R150): Carry and AuxCarry false, Sign, Zero and Parity from the result. -/
def logic8 (res : Byte) (f : Flags) : Flags := setSZP res { f with carry := false, auxCarry := false }

/-- DAD's result and flags (R140): only Carry is written. -/
def add16 (a b : Word) (f : Flags) : Word × Flags :=
  let sum := a.toNat + b.toNat
  (BitVec.ofNat 16 sum, { f with carry := decide (sum > 0xFFFF) })

/-- Step one of DAA (R141): if the low nibble is above 9 or AuxCarry is set, add 6 and write AuxCarry. -/
def daaLow (a : Byte) (f : Flags) : Byte × Flags :=
  let lo := lowNibble a
  if lo > 9 ∨ f.auxCarry then (a + 0x06, { f with auxCarry := decide (lo ≥ 9) }) else (a, f)

/-- Step two of DAA (R141): if the high nibble is above 9 or Carry is set, add 60 and set Carry. -/
def daaHigh (a : Byte) (f : Flags) : Byte × Flags :=
  if highNibble a > 9 ∨ f.carry then (a + 0x60, { f with carry := true }) else (a, f)

/-- DAA (R141): step one, step two, then Sign, Zero, Parity from the corrected value. -/
def daa8 (a : Byte) (f : Flags) : Byte × Flags :=
  let low := daaLow a f
  let high := daaHigh low.1 low.2
  (high.1, setSZP high.1 high.2)

/-- RLC (R170): bit 7 goes to bit 0 and to Carry. -/
def rotateLeft (a : Byte) (f : Flags) : Byte × Flags :=
  ((a <<< 1) ||| BitVec.ofNat 8 (bitValue a[7]), { f with carry := a[7] })

/-- RRC (R171): bit 0 goes to bit 7 and to Carry. -/
def rotateRight (a : Byte) (f : Flags) : Byte × Flags :=
  ((a >>> 1) ||| BitVec.ofNat 8 (bitValue a[0] * 128), { f with carry := a[0] })

/-- RAL (R172): the old Carry goes to bit 0, bit 7 to Carry. -/
def rotateLeftThroughCarry (a : Byte) (f : Flags) : Byte × Flags :=
  ((a <<< 1) ||| BitVec.ofNat 8 (bitValue f.carry), { f with carry := a[7] })

/-- RAR (R173): the old Carry goes to bit 7, bit 0 to Carry. -/
def rotateRightThroughCarry (a : Byte) (f : Flags) : Byte × Flags :=
  ((a >>> 1) ||| BitVec.ofNat 8 (bitValue f.carry * 128), { f with carry := a[0] })

/-- `cond(ccc)` (R64). -/
def condHolds (f : Flags) : Cond → Bool
  | .nz => !f.zero
  | .z => f.zero
  | .nc => !f.carry
  | .c => f.carry
  | .po => !f.parity
  | .pe => f.parity
  | .p => !f.sign
  | .m => f.sign

end Sys2Proof.Machine
end

