-- ==== Sys2Proof/WellFormed.lean ====
section
/-! DEFINITION. Which terms of `Instr` are instructions of the machine. The types of Syntax.lean admit one term that no
encoding has: MOV M,M, whose byte `01110110` is HLT (spec/30_encoding.md R69, R73). -/

namespace Sys2Proof

/-- The check on MOV: at least one of the two operands is a register (R69, R73). -/
def Instr.movOperandsOk : Instr → Bool
  | .mov .m .m => false
  | _ => true

/-- A term of `Instr` that the encoding of R68 to R71 can express. -/
def Instr.wf (i : Instr) : Bool := i.movOperandsOk

end Sys2Proof
end

