-- ==== Sys2Proof/Decode.lean ====
section
/-! DEFINITION. Decoding and encoding (spec/30_encoding.md R60 to R76), the byte-order helpers of R12 and R44, and the
Opcode Table's descriptor (R33, R66). Decoding a byte list is total; what it refuses (a list that ends inside an
instruction) it refuses by name. -/

namespace Sys2Proof

/-! ### Byte order -/

/-- `hi(v)`, `v[15:8]` (spec/00_scope.md section 6). -/
def hiByte (v : Word) : Byte := v.extractLsb' 8 8

/-- `lo(v)`, `v[7:0]` (spec/00_scope.md section 6). -/
def loByte (v : Word) : Byte := v.extractLsb' 0 8

/-- `high<<8 | low`, the 16-bit view over two bytes (R12, R45). -/
def joinBytes (hi lo : Byte) : Word := hi ++ lo

/-! ### Lengths, R76 -/

/-- The 18 opcode bytes of length 2 (R76): MVI, the immediate accumulator operations, OUT, IN. -/
def twoByteOpcodes : List Byte :=
  [0x06, 0x0E, 0x16, 0x1E, 0x26, 0x2E, 0x36, 0x3E,
   0xC6, 0xCE, 0xD6, 0xDE, 0xE6, 0xEE, 0xF6, 0xFE, 0xD3, 0xDB]

/-- The 26 opcode bytes of length 3 (R76): LXI, SHLD, LHLD, STA, LDA, Jcc, JMP, Ccc, CALL. -/
def threeByteOpcodes : List Byte :=
  [0x01, 0x11, 0x21, 0x31, 0x22, 0x2A, 0x32, 0x3A,
   0xC2, 0xCA, 0xD2, 0xDA, 0xE2, 0xEA, 0xF2, 0xFA, 0xC3,
   0xC4, 0xCC, 0xD4, 0xDC, 0xE4, 0xEC, 0xF4, 0xFC, 0xCD]

/-- The length of the instruction an opcode byte begins; every byte in neither list has length 1, the thirteen faulting
bytes among them (R60, R76). -/
def opLength (op : Byte) : Nat :=
  if op ∈ twoByteOpcodes then 2 else if op ∈ threeByteOpcodes then 3 else 1

/-! ### Fields of the opcode byte, R61 to R64, R72 -/

/-- Bits 7:6, the group `gg` (R61). -/
def groupField (op : Byte) : BitVec 2 := op.extractLsb' 6 2

/-- Bits 5:3: `ddd`, `ccc`, `nnn` or `ooo` (R61). -/
def midField (op : Byte) : BitVec 3 := op.extractLsb' 3 3

/-- Bits 2:0: `sss` or a fixed function code (R61). -/
def lowField (op : Byte) : BitVec 3 := op.extractLsb' 0 3

/-- The register code (R62). -/
def decodeOperand : BitVec 3 → Operand
  | 0b000#3 => .reg .b
  | 0b001#3 => .reg .c
  | 0b010#3 => .reg .d
  | 0b011#3 => .reg .e
  | 0b100#3 => .reg .h
  | 0b101#3 => .reg .l
  | 0b110#3 => .m
  | 0b111#3 => .reg .a

/-! ### The opcode map, R68 to R71 -/

/-- Group `00`, low bits 000 (R68): NOP and seven undefined bytes. -/
def decodeNopColumn : BitVec 3 → Instr
  | 0b000#3 => .nop
  | 0b001#3 => .undefined .x08
  | 0b010#3 => .undefined .x10
  | 0b011#3 => .undefined .x18
  | 0b100#3 => .undefined .x20
  | 0b101#3 => .undefined .x28
  | 0b110#3 => .undefined .x30
  | 0b111#3 => .undefined .x38

/-- Group `00`, low bits 001 (R68): `00pp0001` LXI and `00pp1001` DAD. -/
def decodeLxiColumn (d16 : Word) : BitVec 3 → Instr
  | 0b000#3 => .lxi (.pair .bc) d16
  | 0b001#3 => .dad (.pair .bc)
  | 0b010#3 => .lxi (.pair .de) d16
  | 0b011#3 => .dad (.pair .de)
  | 0b100#3 => .lxi (.pair .hl) d16
  | 0b101#3 => .dad (.pair .hl)
  | 0b110#3 => .lxi .sp d16
  | 0b111#3 => .dad .sp

/-- Group `00`, low bits 010 (R68): STAX, LDAX, SHLD, LHLD, STA, LDA. -/
def decodeStoreColumn (a16 : Word) : BitVec 3 → Instr
  | 0b000#3 => .stax .bc
  | 0b001#3 => .ldax .bc
  | 0b010#3 => .stax .de
  | 0b011#3 => .ldax .de
  | 0b100#3 => .shld a16
  | 0b101#3 => .lhld a16
  | 0b110#3 => .sta a16
  | 0b111#3 => .lda a16

/-- Group `00`, low bits 011 (R68): `00pp0011` INX and `00pp1011` DCX. -/
def decodeInxColumn : BitVec 3 → Instr
  | 0b000#3 => .inx (.pair .bc)
  | 0b001#3 => .dcx (.pair .bc)
  | 0b010#3 => .inx (.pair .de)
  | 0b011#3 => .dcx (.pair .de)
  | 0b100#3 => .inx (.pair .hl)
  | 0b101#3 => .dcx (.pair .hl)
  | 0b110#3 => .inx .sp
  | 0b111#3 => .dcx .sp

/-- Group `00`, low bits 111 (R68): the rotates, DAA, CMA, STC, CMC. -/
def decodeAccumulatorColumn : BitVec 3 → Instr
  | 0b000#3 => .rlc
  | 0b001#3 => .rrc
  | 0b010#3 => .ral
  | 0b011#3 => .rar
  | 0b100#3 => .daa
  | 0b101#3 => .cma
  | 0b110#3 => .stc
  | 0b111#3 => .cmc

/-- Group `00` (R68). -/
def decodeGroup00 (mid low : BitVec 3) (z w : Byte) : Instr :=
  match low with
  | 0b000#3 => decodeNopColumn mid
  | 0b001#3 => decodeLxiColumn (joinBytes w z) mid
  | 0b010#3 => decodeStoreColumn (joinBytes w z) mid
  | 0b011#3 => decodeInxColumn mid
  | 0b100#3 => .inr (decodeOperand mid)
  | 0b101#3 => .dcr (decodeOperand mid)
  | 0b110#3 => .mvi (decodeOperand mid) z
  | 0b111#3 => decodeAccumulatorColumn mid

/-- Group `01` (R69): `01dddsss` is MOV, but for `01110110`, which is HLT. -/
def decodeGroup01 (dst src : Operand) : Instr :=
  match dst, src with
  | .m, .m => .hlt
  | _, _ => .mov dst src

/-- Group `10` (R70): `10ooosss`. -/
def decodeGroup10 (src : Operand) : BitVec 3 → Instr
  | 0b000#3 => .add src
  | 0b001#3 => .adc src
  | 0b010#3 => .sub src
  | 0b011#3 => .sbb src
  | 0b100#3 => .ana src
  | 0b101#3 => .xra src
  | 0b110#3 => .ora src
  | 0b111#3 => .cmp src

/-- Group `11`, low bits 000 (R71): Rcc. -/
def decodeReturnColumn : BitVec 3 → Instr
  | 0b000#3 => .rnz
  | 0b001#3 => .rz
  | 0b010#3 => .rnc
  | 0b011#3 => .rc
  | 0b100#3 => .rpo
  | 0b101#3 => .rpe
  | 0b110#3 => .rp
  | 0b111#3 => .rm

/-- Group `11`, low bits 001 (R71): `11pp0001` POP, and RET, undefined, PCHL, SPHL. -/
def decodePopColumn : BitVec 3 → Instr
  | 0b000#3 => .pop (.pair .bc)
  | 0b001#3 => .ret
  | 0b010#3 => .pop (.pair .de)
  | 0b011#3 => .undefined .xD9
  | 0b100#3 => .pop (.pair .hl)
  | 0b101#3 => .pchl
  | 0b110#3 => .pop .psw
  | 0b111#3 => .sphl

/-- Group `11`, low bits 010 (R71): Jcc. -/
def decodeJumpColumn (a16 : Word) : BitVec 3 → Instr
  | 0b000#3 => .jnz a16
  | 0b001#3 => .jz a16
  | 0b010#3 => .jnc a16
  | 0b011#3 => .jc a16
  | 0b100#3 => .jpo a16
  | 0b101#3 => .jpe a16
  | 0b110#3 => .jp a16
  | 0b111#3 => .jm a16

/-- Group `11`, low bits 011 (R71): JMP, undefined, OUT, IN, XTHL, XCHG, DI, EI. -/
def decodeControlColumn (z w : Byte) : BitVec 3 → Instr
  | 0b000#3 => .jmp (joinBytes w z)
  | 0b001#3 => .undefined .xCB
  | 0b010#3 => .out z
  | 0b011#3 => .inp z
  | 0b100#3 => .xthl
  | 0b101#3 => .xchg
  | 0b110#3 => .di
  | 0b111#3 => .ei

/-- Group `11`, low bits 100 (R71): Ccc. -/
def decodeCallColumn (a16 : Word) : BitVec 3 → Instr
  | 0b000#3 => .cnz a16
  | 0b001#3 => .cz a16
  | 0b010#3 => .cnc a16
  | 0b011#3 => .cc a16
  | 0b100#3 => .cpo a16
  | 0b101#3 => .cpe a16
  | 0b110#3 => .cp a16
  | 0b111#3 => .cm a16

/-- Group `11`, low bits 101 (R71): `11pp0101` PUSH, CALL and three undefined bytes. -/
def decodePushColumn (a16 : Word) : BitVec 3 → Instr
  | 0b000#3 => .push (.pair .bc)
  | 0b001#3 => .call a16
  | 0b010#3 => .push (.pair .de)
  | 0b011#3 => .undefined .xDD
  | 0b100#3 => .push (.pair .hl)
  | 0b101#3 => .undefined .xED
  | 0b110#3 => .push .psw
  | 0b111#3 => .undefined .xFD

/-- Group `11`, low bits 110 (R71): the immediate accumulator operations. -/
def decodeImmediateColumn (d8 : Byte) : BitVec 3 → Instr
  | 0b000#3 => .adi d8
  | 0b001#3 => .aci d8
  | 0b010#3 => .sui d8
  | 0b011#3 => .sbi d8
  | 0b100#3 => .ani d8
  | 0b101#3 => .xri d8
  | 0b110#3 => .ori d8
  | 0b111#3 => .cpi d8

/-- Group `11` (R71); low bits 111 are `11nnn111`, RST n (R72). -/
def decodeGroup11 (mid low : BitVec 3) (z w : Byte) : Instr :=
  match low with
  | 0b000#3 => decodeReturnColumn mid
  | 0b001#3 => decodePopColumn mid
  | 0b010#3 => decodeJumpColumn (joinBytes w z) mid
  | 0b011#3 => decodeControlColumn z w mid
  | 0b100#3 => decodeCallColumn (joinBytes w z) mid
  | 0b101#3 => decodePushColumn (joinBytes w z) mid
  | 0b110#3 => decodeImmediateColumn z mid
  | 0b111#3 => .rst mid.toFin

/-- The instruction that opcode byte `op` is, with its operand bytes in the latches: `z` the second byte, `w` the third
(R45, R67). Total: each of the 256 bytes is an instruction, the thirteen faulting ones among them (R65). A byte the
instruction does not have (`w` of a 2-byte one, both of a 1-byte one) is not looked at. -/
def decodeInstr (op z w : Byte) : Instr :=
  match groupField op with
  | 0b00#2 => decodeGroup00 (midField op) (lowField op) z w
  | 0b01#2 => decodeGroup01 (decodeOperand (midField op)) (decodeOperand (lowField op))
  | 0b10#2 => decodeGroup10 (decodeOperand (lowField op)) (midField op)
  | 0b11#2 => decodeGroup11 (midField op) (lowField op) z w

/-- Why a list of bytes holds no whole instruction at its head. -/
inductive DecodeError where
  /-- The list is empty: there is no opcode byte. -/
  | noOpcode
  /-- The list ends before the operand bytes that the opcode's length asks for (R60). -/
  | missingOperandBytes (op : Byte)
deriving DecidableEq, Repr

/-- Read one instruction off the head of a list of bytes, and give the rest (R60, R61): first byte the opcode, then the
byte for Z, then the byte for W. -/
def decode : List Byte → Except DecodeError (Instr × List Byte)
  | [] => .error .noOpcode
  | op :: rest =>
    match opLength op, rest with
    | 1, rest => .ok (decodeInstr op 0 0, rest)
    | 2, z :: rest => .ok (decodeInstr op z 0, rest)
    | 3, z :: w :: rest => .ok (decodeInstr op z w, rest)
    | _, _ => .error (.missingOperandBytes op)

/-! ### The encoder, from the same tables -/

/-- The 3-bit register code of an operand (R62). -/
def operandCode : Operand → BitVec 3
  | .reg .b => 0b000
  | .reg .c => 0b001
  | .reg .d => 0b010
  | .reg .e => 0b011
  | .reg .h => 0b100
  | .reg .l => 0b101
  | .m => 0b110
  | .reg .a => 0b111

/-- The 2-bit pair code (R63). -/
def pairCode : Pair → BitVec 2
  | .bc => 0b00
  | .de => 0b01
  | .hl => 0b10

/-- The 2-bit code of LXI, INX, DCX, DAD (R63). -/
def wideCode : Wide → BitVec 2
  | .pair p => pairCode p
  | .sp => 0b11

/-- The 2-bit code of PUSH, POP (R63). -/
def stackRegCode : StackReg → BitVec 2
  | .pair p => pairCode p
  | .psw => 0b11

/-- The bit `p` of STAX, LDAX (R68, R106, R107). -/
def indexPairCode : IndexPair → BitVec 1
  | .bc => 0b0
  | .de => 0b1

/-- The byte of an undefined opcode (R65). -/
def undefinedByteCode : UndefinedByte → Byte
  | .x08 => 0x08
  | .x10 => 0x10
  | .x18 => 0x18
  | .x20 => 0x20
  | .x28 => 0x28
  | .x30 => 0x30
  | .x38 => 0x38
  | .xCB => 0xCB
  | .xD9 => 0xD9
  | .xDD => 0xDD
  | .xED => 0xED
  | .xFD => 0xFD

/-- The opcode byte of an instruction, each from the "Encoding" line of its rule. -/
def opcodeOf : Instr → Byte
  | .mov dst src => 0b01#2 ++ operandCode dst ++ operandCode src
  | .mvi dst _ => 0b00#2 ++ operandCode dst ++ 0b110#3
  | .lxi dst _ => 0b00#2 ++ wideCode dst ++ 0b0001#4
  | .stax p => 0b000#3 ++ indexPairCode p ++ 0b0010#4
  | .ldax p => 0b000#3 ++ indexPairCode p ++ 0b1010#4
  | .shld _ => 0b00100010
  | .lhld _ => 0b00101010
  | .sta _ => 0b00110010
  | .lda _ => 0b00111010
  | .add src => 0b10000#5 ++ operandCode src
  | .adc src => 0b10001#5 ++ operandCode src
  | .sub src => 0b10010#5 ++ operandCode src
  | .sbb src => 0b10011#5 ++ operandCode src
  | .adi _ => 0b11000110
  | .aci _ => 0b11001110
  | .sui _ => 0b11010110
  | .sbi _ => 0b11011110
  | .inr dst => 0b00#2 ++ operandCode dst ++ 0b100#3
  | .dcr dst => 0b00#2 ++ operandCode dst ++ 0b101#3
  | .inx dst => 0b00#2 ++ wideCode dst ++ 0b0011#4
  | .dcx dst => 0b00#2 ++ wideCode dst ++ 0b1011#4
  | .dad src => 0b00#2 ++ wideCode src ++ 0b1001#4
  | .daa => 0b00100111
  | .ana src => 0b10100#5 ++ operandCode src
  | .xra src => 0b10101#5 ++ operandCode src
  | .ora src => 0b10110#5 ++ operandCode src
  | .cmp src => 0b10111#5 ++ operandCode src
  | .ani _ => 0b11100110
  | .xri _ => 0b11101110
  | .ori _ => 0b11110110
  | .cpi _ => 0b11111110
  | .cma => 0b00101111
  | .stc => 0b00110111
  | .cmc => 0b00111111
  | .rlc => 0b00000111
  | .rrc => 0b00001111
  | .ral => 0b00010111
  | .rar => 0b00011111
  | .jmp _ => 0b11000011
  | .jnz _ => 0b11000010
  | .jz _ => 0b11001010
  | .jnc _ => 0b11010010
  | .jc _ => 0b11011010
  | .jpo _ => 0b11100010
  | .jpe _ => 0b11101010
  | .jp _ => 0b11110010
  | .jm _ => 0b11111010
  | .call _ => 0b11001101
  | .cnz _ => 0b11000100
  | .cz _ => 0b11001100
  | .cnc _ => 0b11010100
  | .cc _ => 0b11011100
  | .cpo _ => 0b11100100
  | .cpe _ => 0b11101100
  | .cp _ => 0b11110100
  | .cm _ => 0b11111100
  | .ret => 0b11001001
  | .rnz => 0b11000000
  | .rz => 0b11001000
  | .rnc => 0b11010000
  | .rc => 0b11011000
  | .rpo => 0b11100000
  | .rpe => 0b11101000
  | .rp => 0b11110000
  | .rm => 0b11111000
  | .pchl => 0b11101001
  | .rst n => 0b11#2 ++ BitVec.ofFin (w := 3) n ++ 0b111#3
  | .push src => 0b11#2 ++ stackRegCode src ++ 0b0101#4
  | .pop dst => 0b11#2 ++ stackRegCode dst ++ 0b0001#4
  | .xchg => 0b11101011
  | .xthl => 0b11100011
  | .sphl => 0b11111001
  | .inp _ => 0b11011011
  | .out _ => 0b11010011
  | .ei => 0b11111011
  | .di => 0b11110011
  | .nop => 0b00000000
  | .hlt => 0b01110110
  | .undefined u => undefinedByteCode u

/-- The bytes after the opcode: one immediate or port byte (format F2), or low byte then high byte (format F3), R61. -/
def operandBytes : Instr → List Byte
  | .mvi _ d8 | .adi d8 | .aci d8 | .sui d8 | .sbi d8 | .ani d8 | .xri d8 | .ori d8 | .cpi d8 => [d8]
  | .inp port | .out port => [port]
  | .lxi _ d16 => [loByte d16, hiByte d16]
  | .shld a16 | .lhld a16 | .sta a16 | .lda a16 => [loByte a16, hiByte a16]
  | .jmp a16 | .jnz a16 | .jz a16 | .jnc a16 | .jc a16 | .jpo a16 | .jpe a16 | .jp a16 | .jm a16 =>
    [loByte a16, hiByte a16]
  | .call a16 | .cnz a16 | .cz a16 | .cnc a16 | .cc a16 | .cpo a16 | .cpe a16 | .cp a16 | .cm a16 =>
    [loByte a16, hiByte a16]
  | .mov _ _ | .stax _ | .ldax _ | .add _ | .adc _ | .sub _ | .sbb _ | .inr _ | .dcr _ | .inx _ | .dcx _ | .dad _ | .daa
  | .ana _ | .xra _ | .ora _ | .cmp _ | .cma | .stc | .cmc | .rlc | .rrc | .ral | .rar => []
  | .ret | .rnz | .rz | .rnc | .rc | .rpo | .rpe | .rp | .rm | .pchl | .rst _ => []
  | .push _ | .pop _ | .xchg | .xthl | .sphl | .ei | .di | .nop | .hlt | .undefined _ => []

/-- The bytes of an instruction, lowest address first (R61). -/
def encode (i : Instr) : List Byte := opcodeOf i :: operandBytes i

/-! ### The Opcode Table's descriptor, R2, R33, R66 -/

/-- The mnemonic of an instruction as this spec writes it (R74); only diagnostics use it. -/
def mnemonicOf : Instr → String
  | .mov _ _ => "MOV" | .mvi _ _ => "MVI" | .lxi _ _ => "LXI" | .stax _ => "STAX" | .ldax _ => "LDAX"
  | .shld _ => "SHLD" | .lhld _ => "LHLD" | .sta _ => "STA" | .lda _ => "LDA"
  | .add _ => "ADD" | .adc _ => "ADC" | .sub _ => "SUB" | .sbb _ => "SBB"
  | .adi _ => "ADI" | .aci _ => "ACI" | .sui _ => "SUI" | .sbi _ => "SBI"
  | .inr _ => "INR" | .dcr _ => "DCR" | .inx _ => "INX" | .dcx _ => "DCX" | .dad _ => "DAD" | .daa => "DAA"
  | .ana _ => "ANA" | .xra _ => "XRA" | .ora _ => "ORA" | .cmp _ => "CMP"
  | .ani _ => "ANI" | .xri _ => "XRI" | .ori _ => "ORI" | .cpi _ => "CPI"
  | .cma => "CMA" | .stc => "STC" | .cmc => "CMC" | .rlc => "RLC" | .rrc => "RRC" | .ral => "RAL" | .rar => "RAR"
  | .jmp _ => "JMP" | .jnz _ => "JNZ" | .jz _ => "JZ" | .jnc _ => "JNC" | .jc _ => "JC"
  | .jpo _ => "JPO" | .jpe _ => "JPE" | .jp _ => "JP" | .jm _ => "JM"
  | .call _ => "CALL" | .cnz _ => "CNZ" | .cz _ => "CZ" | .cnc _ => "CNC" | .cc _ => "CC"
  | .cpo _ => "CPO" | .cpe _ => "CPE" | .cp _ => "CP" | .cm _ => "CM"
  | .ret => "RET" | .rnz => "RNZ" | .rz => "RZ" | .rnc => "RNC" | .rc => "RC"
  | .rpo => "RPO" | .rpe => "RPE" | .rp => "RP" | .rm => "RM" | .pchl => "PCHL" | .rst _ => "RST"
  | .push _ => "PUSH" | .pop _ => "POP" | .xchg => "XCHG" | .xthl => "XTHL" | .sphl => "SPHL"
  | .inp _ => "IN" | .out _ => "OUT" | .ei => "EI" | .di => "DI" | .nop => "NOP" | .hlt => "HLT"
  | .undefined _ => "NOP"

/-- An instruction descriptor of the Opcode Table (R2, R33). The mnemonic's template syntax is not given (N15). -/
structure Descriptor where
  length : Nat
  mnemonic : String
deriving DecidableEq, Repr

/-- The static map from opcode byte to descriptor (R33). A byte the map does not assign has the default entry
`length 1, mnemonic NOP`, a name for diagnostics and no behaviour (R66, 90_conflicts.md C4). -/
def opcodeTable (op : Byte) : Descriptor :=
  ⟨opLength op, mnemonicOf (decodeInstr op 0 0)⟩

/-! ### The host's view of the decoder -/

/-- Byte `k` of the number whose bit 0 is bit 0 of the first byte, bits at and above `nbits` read as 0. -/
def tableByte (nbits w k : Nat) : Byte := BitVec.ofNat 8 (w % 2 ^ nbits / 2 ^ (8 * k))

/-- The bytes of a table word, as the hardware stores them: the opcode first, operand bytes not given being 0. -/
def tableBytes (nbits w : Nat) : List Byte := [tableByte nbits w 0, tableByte nbits w 1, tableByte nbits w 2]

/-- The instruction the decoder reads from a word numbered as spec/opcode_table.json numbers it. -/
def decodeTableWord (nbits w : Nat) : Option Instr :=
  match decode (tableBytes nbits w) with
  | .ok (i, _) => some i
  | .error _ => none

end Sys2Proof
end

