-- ==== Sys2Proof/Machine/Ops.lean ====
section
/-! DEFINITION. The named operations over registers, memory and ports: register and pair access (spec/10_state.md R10 to
R17), `MemRead` and `MemWrite` (spec/20_memory.md R41 to R53), `push16` and `pop16` (spec/44_branch.md R181, R182), the port
hooks (spec/46_io_control.md R245 to R247), interrupt acceptance, trap entry and return (spec/60_exceptions.md R265 to
R267, R271), and the fetch (spec/30_encoding.md R67). -/

namespace Sys2Proof.Machine

/-! ### Memory as data -/

/-- The byte at an address; the list rises, so the search ends at the first larger address. -/
def Memory.read : Memory → Nat → Byte
  | [], _ => Memory.unlisted
  | (k, v) :: rest, a => if a < k then Memory.unlisted else if a = k then v else Memory.read rest a

/-- An entry at the head of a list, left out where it says no more than being unlisted does. -/
def Memory.consCell (a : Nat) (v : Byte) (rest : Memory) : Memory :=
  if v = Memory.unlisted then rest else (a, v) :: rest

/-- Replace the byte at an address, keeping the canonical form. -/
def Memory.write : Memory → Nat → Byte → Memory
  | [], a, v => Memory.consCell a v []
  | (k, x) :: rest, a, v =>
    if a < k then Memory.consCell a v ((k, x) :: rest)
    else if a = k then Memory.consCell a v rest
    else (k, x) :: Memory.write rest a v

/-- Replace consecutive bytes from an address on (R292). -/
def Memory.writeAll (m : Memory) (start : Nat) : List Byte → Memory
  | [] => m
  | v :: rest => Memory.writeAll (Memory.write m start v) (start + 1) rest

/-! ### Registers, latches, PC, SP, flags, control state -/

namespace State

/-- `reg[c]` (R62). -/
def getReg (s : State) : Reg → Byte
  | .a => s.regs.a
  | .b => s.regs.b
  | .c => s.regs.c
  | .d => s.regs.d
  | .e => s.regs.e
  | .h => s.regs.h
  | .l => s.regs.l

/-- `reg[c] <- v` (R62). -/
def setReg (s : State) (r : Reg) (v : Byte) : State :=
  match r with
  | .a => { s with regs := { s.regs with a := v } }
  | .b => { s with regs := { s.regs with b := v } }
  | .c => { s with regs := { s.regs with c := v } }
  | .d => { s with regs := { s.regs with d := v } }
  | .e => { s with regs := { s.regs with e := v } }
  | .h => { s with regs := { s.regs with h := v } }
  | .l => { s with regs := { s.regs with l := v } }

/-- The high register of a pair (R12). -/
def pairHigh : Pair → Reg
  | .bc => .b
  | .de => .d
  | .hl => .h

/-- The low register of a pair (R12). -/
def pairLow : Pair → Reg
  | .bc => .c
  | .de => .e
  | .hl => .l

/-- A register pair as a 16-bit view, `high<<8 | low` (R12). -/
def getPair (s : State) (p : Pair) : Word := joinBytes (s.getReg (pairHigh p)) (s.getReg (pairLow p))

/-- Writing a pair "decomposes the value into its two byte registers" (R12). -/
def setPair (s : State) (p : Pair) (v : Word) : State :=
  (s.setReg (pairHigh p) (hiByte v)).setReg (pairLow p) (loByte v)

/-- HL, the address of every M operand (R14). -/
def hl (s : State) : Word := s.getPair .hl

/-- WZ, the pair of the two latches (R12). -/
def wz (s : State) : Word := joinBytes s.w s.z

/-- `Z <- z; W <- w`: the fetch's write of the latches (R11, R67). -/
def setLatches (s : State) (z w : Byte) : State := { s with z := z, w := w }

/-- Writing the pair WZ: W high, Z low (R12). No instruction does it (R11). -/
def setWz (s : State) (v : Word) : State := s.setLatches (loByte v) (hiByte v)

/-- `pc <- v` (R16). -/
def setPc (s : State) (v : Word) : State := { s with pc := v }

/-- `SP <- v` (R17). -/
def setSp (s : State) (v : Word) : State := { s with sp := v }

/-- Write all five flags. -/
def setFlags (s : State) (f : Flags) : State := { s with flags := f }

/-- `INTE <- b` (R26). -/
def setInte (s : State) (b : Bool) : State := { s with inte := b }

/-- `pending <- p` (R27). -/
def setPending (s : State) (p : Option Byte) : State := { s with pending := p }

/-- Replace the Memory array. -/
def setMem (s : State) (m : Memory) : State := { s with mem := m }

/-- `cycles <- n`: the number the Step returns (R264, R298). -/
def setCycles (s : State) (n : Nat) : State := { s with cycles := n }

/-! ### Memory access, R41 to R53 -/

/-- The byte at an address, whatever the capacity: how a claim looks at memory. -/
def byteAt (s : State) (a : Word) : Byte := Memory.read s.mem a.toNat

/-- `addr < MEM_CAPACITY` (R41). -/
def inBounds (s : State) (a : Word) : Bool := decide (a.toNat < s.config.memCapacity)

/-- `MemRead(addr, 1)` (R41). -/
def readByte (s : State) (a : Word) : Except Fault Byte :=
  if s.inBounds a then .ok (s.byteAt a) else .error .outOfBoundsAccess

/-- `MemWrite(addr, 1, v)` (R42). -/
def writeByte (s : State) (a : Word) (v : Byte) : Except Fault State :=
  if s.inBounds a then .ok (s.setMem (Memory.write s.mem a.toNat v)) else .error .outOfBoundsAccess

/-- `MemRead(addr, 2)` (R44, R50): the low byte at `addr`, then the high byte at `addr + 1` modulo 65536 (R53). -/
def readWord (s : State) (a : Word) : Except Fault Word := do
  let lo ← s.readByte a
  let hi ← s.readByte (a + 1)
  pure (joinBytes hi lo)

/-- `MemWrite(addr, 2, v)` (R44, R50): the low byte at `addr`, then the high byte at `addr + 1` modulo 65536 (R53). -/
def writeWord (s : State) (a : Word) (v : Word) : Except Fault State := do
  let s1 ← s.writeByte a (loByte v)
  s1.writeByte (a + 1) (hiByte v)

/-! ### The stack, R181, R182 -/

/-- `push16(v)` (R181): the high byte at SP-1, then the low byte at SP-2, SP down by 2. -/
def push16 (s : State) (v : Word) : Except Fault State := do
  let s1 ← s.writeByte (s.sp - 1) (hiByte v)
  let s2 ← s1.writeByte (s.sp - 2) (loByte v)
  pure (s2.setSp (s.sp - 2))

/-- `pop16()` (R182): the low byte at SP, the high byte at SP+1, SP up by 2. -/
def pop16 (s : State) : Except Fault (Word × State) := do
  let v ← s.readWord s.sp
  pure (v, s.setSp (s.sp + 2))

/-! ### Trap entry and return, R193, R214, R267, R271 -/

/-- Push PC and go to `target`: the whole of CALL, of RST and of trap entry, which saves PC alone (R193, R214, R267). -/
def callTo (s : State) (target : Word) : Except Fault State := do
  let s1 ← s.push16 s.pc
  pure (s1.setPc target)

/-- Pop PC: RET, which is also the return from an interrupt handler (R203, R271). -/
def returnFrom (s : State) : Except Fault State := do
  let (target, s1) ← s.pop16
  pure (s1.setPc target)

/-- The address `n * 8` of an RST vector (R72, R214). -/
def rstTarget (n : Fin 8) : Word := BitVec.ofNat 16 (n.val * 8)

/-! ### Ports, R245 to R247 -/

/-- What `ReadPort port` answers in this state (R245, U8): the next answer the environment has lined up, and where it has
lined up none, the free value at the calls made so far (log 5). -/
def portAnswer (s : State) (port : Byte) : Byte :=
  match s.portAnswers with
  | v :: _ => v
  | [] => Config.portIn s.portEvents port

/-- `PortRead(port)` (R245): faults with no hook; the call and its answer join the history. -/
def portRead (s : State) (port : Byte) : Except Fault (Byte × State) :=
  if s.config.readPortBound then
    .ok (s.portAnswer port,
      { s with
        portAnswers := s.portAnswers.tail
        portEvents := s.portEvents ++ [.read port (s.portAnswer port)] })
  else .error .missingPortHandler

/-- `PortWrite(port, v)` (R246): faults with no hook; the call joins the history and changes no core state (R247). -/
def portWrite (s : State) (port v : Byte) : Except Fault State :=
  if s.config.writePortBound then .ok { s with portEvents := s.portEvents ++ [.write port v] }
  else .error .missingPortHandler

/-! ### Interrupt acceptance and fetch: steps 1 and 2 of R264 -/

/-- Acceptance (R265): when a request is pending and INTE is true, the slot is emptied and the vector is the opcode. PC, Z,
W and INTE stay as they are (R264, R266). -/
def acceptInterrupt (s : State) : Option (Byte × State) :=
  match s.inte, s.pending with
  | true, some v => some (v, s.setPending none)
  | _, _ => none

/-- The fetch (R67): the opcode at PC, Z with the second byte, W with the third, PC advanced by the length. -/
def fetch (s : State) : Except Fault (Byte × State) := do
  let op ← s.readByte s.pc
  let len := opLength op
  let z ← if len ≥ 2 then s.readByte (s.pc + 1) else pure s.z
  let w ← if len = 3 then s.readByte (s.pc + 2) else pure s.w
  pure (op, (s.setLatches z w).setPc (s.pc + BitVec.ofNat 16 len))

/-- Steps 1 and 2 of `Step()` (R264): the opcode to execute and the state it is executed in. -/
def currentOpcode (s : State) : Except Fault (Byte × State) :=
  match s.acceptInterrupt with
  | some r => .ok r
  | none => s.fetch

end State

/-! ### The end of a Step -/

/-- The outcome of an execute phase that returns `n` cycles: the next state, or the fault, which discards every write of
the Step (R7, R263). -/
def retire (n : Nat) : Except Fault State → Host.Outcome State Fault Refusal
  | .ok s => .next (s.setCycles n)
  | .error f => .fault f

end Sys2Proof.Machine
end

