-- ==== Sys2Proof/Machine/Operands.lean ====
section
/-! DEFINITION. Every operand form: the 3-bit register or M operand (spec/30_encoding.md R62), the pair operands of R63, and
the shapes of instruction that share them. The addressing modes are those of spec/40_data_transfer.md R112. -/

namespace Sys2Proof.Machine

namespace State

/-- The value of a register or M operand (R62); M is the byte at HL. -/
def readOperand (s : State) : Operand → Except Fault Byte
  | .reg r => .ok (s.getReg r)
  | .m => s.readByte s.hl

/-- Write a register or M operand (R62); M is the byte at HL. -/
def writeOperand (s : State) (o : Operand) (v : Byte) : Except Fault State :=
  match o with
  | .reg r => .ok (s.setReg r v)
  | .m => s.writeByte s.hl v

/-- `pair[p]` for LXI, INX, DCX, DAD (R63). -/
def getWide (s : State) : Wide → Word
  | .pair p => s.getPair p
  | .sp => s.sp

/-- `pair[p] <- v` for LXI, INX, DCX (R63). -/
def setWide (s : State) (x : Wide) (v : Word) : State :=
  match x with
  | .pair p => s.setPair p v
  | .sp => s.setSp v

/-- PSW: A high, the packed Flags byte low (R221). -/
def psw (s : State) : Word := joinBytes s.regs.a (packFlags s.flags)

/-- Write PSW: A from the high byte, the flags from the low byte (R223). -/
def setPsw (s : State) (v : Word) : State := (s.setReg .a (hiByte v)).setFlags (unpackFlags (loByte v))

/-- What PUSH pushes (R220, R221). -/
def getStackReg (s : State) : StackReg → Word
  | .pair p => s.getPair p
  | .psw => s.psw

/-- Where POP puts what it pops (R222, R223). -/
def setStackReg (s : State) (x : StackReg) (v : Word) : State :=
  match x with
  | .pair p => s.setPair p v
  | .psw => s.setPsw v

/-- The address of STAX and LDAX (R106, R107). -/
def indexAddress (s : State) : IndexPair → Word
  | .bc => s.getPair .bc
  | .de => s.getPair .de

/-- Write A and the flags together: the end of every accumulator operation that keeps its result. -/
def setAccumulator (s : State) (r : Byte × Flags) : State := (s.setReg .a r.1).setFlags r.2

/-- `A <- add8(A, v, cin)` (R120). -/
def accAdd (s : State) (v : Byte) (cin : Bool) : State := s.setAccumulator (add8 s.regs.a v cin s.flags)

/-- `A <- sub8(A, v, bin)` (R121). -/
def accSub (s : State) (v : Byte) (bin : Bool) : State := s.setAccumulator (sub8 s.regs.a v bin s.flags)

/-- `discard <- sub8(A, v, 0)`: the flags of a subtraction whose result is dropped (R157). -/
def accCompare (s : State) (v : Byte) : State := s.setFlags (sub8 s.regs.a v false s.flags).2

/-- `A <- v; logic8(A)` (R150). -/
def accLogic (s : State) (v : Byte) : State := s.setAccumulator (v, logic8 v s.flags)

end State

/-- A cycle count that depends on whether the operand is a register or M (R298). -/
def operandCycles (o : Operand) (onReg onM : Nat) : Nat :=
  match o with
  | .reg _ => onReg
  | .m => onM

/-- An accumulator operation on a register or M operand: 4 cycles, or 7 on M (R298). -/
def withOperand (src : Operand) (s : State) (f : Byte → State) : Host.Outcome State Fault Refusal :=
  retire (operandCycles src 4 7) (do
    let v ← s.readOperand src
    pure (f v))

/-- INR and DCR: read the operand, write it back, write the flags; 5 cycles, or 10 on M (R134 to R137, R298). -/
def updateOperand (dst : Operand) (s : State) (f : Byte → Flags → Byte × Flags) : Host.Outcome State Fault Refusal :=
  retire (operandCycles dst 5 10) (do
    let v ← s.readOperand dst
    let s1 ← s.writeOperand dst (f v s.flags).1
    pure (s1.setFlags (f v s.flags).2))

/-- Jcc (R184): 10 cycles, taken or not. -/
def jumpIf (cond : Cond) (target : Word) (s : State) : Host.Outcome State Fault Refusal :=
  retire 10 (.ok (if condHolds s.flags cond then s.setPc target else s))

/-- Ccc (R194): 17 cycles taken, 11 not taken. -/
def callIf (cond : Cond) (target : Word) (s : State) : Host.Outcome State Fault Refusal :=
  if condHolds s.flags cond then retire 17 (s.callTo target) else retire 11 (.ok s)

/-- Rcc (R204): 11 cycles taken, 5 not taken. -/
def returnIf (cond : Cond) (s : State) : Host.Outcome State Fault Refusal :=
  if condHolds s.flags cond then retire 11 s.returnFrom else retire 5 (.ok s)

end Sys2Proof.Machine
end

