-- ==== Sys2Proof/Machine/Arithmetic.lean ====
section
/-! DEFINITION. Arithmetic (spec/41_arithmetic.md R122 to R141). -/

namespace Sys2Proof.Machine

/-- ADD (R122, R123). -/
def execAdd (src : Operand) (s : State) : Host.Outcome State Fault Refusal :=
  withOperand src s (fun v => s.accAdd v false)

/-- ADC (R124, R125): Carry is read before it is written. -/
def execAdc (src : Operand) (s : State) : Host.Outcome State Fault Refusal :=
  withOperand src s (fun v => s.accAdd v s.flags.carry)

/-- SUB (R126, R127). -/
def execSub (src : Operand) (s : State) : Host.Outcome State Fault Refusal :=
  withOperand src s (fun v => s.accSub v false)

/-- SBB (R128, R129): Carry is the borrow-in, read before it is written. -/
def execSbb (src : Operand) (s : State) : Host.Outcome State Fault Refusal :=
  withOperand src s (fun v => s.accSub v s.flags.carry)

/-- ADI (R130). -/
def execAdi (d8 : Byte) (s : State) : Host.Outcome State Fault Refusal :=
  retire 7 (.ok (s.accAdd d8 false))

/-- ACI (R131). -/
def execAci (d8 : Byte) (s : State) : Host.Outcome State Fault Refusal :=
  retire 7 (.ok (s.accAdd d8 s.flags.carry))

/-- SUI (R132). -/
def execSui (d8 : Byte) (s : State) : Host.Outcome State Fault Refusal :=
  retire 7 (.ok (s.accSub d8 false))

/-- SBI (R133). -/
def execSbi (d8 : Byte) (s : State) : Host.Outcome State Fault Refusal :=
  retire 7 (.ok (s.accSub d8 s.flags.carry))

/-- INR (R134, R135). -/
def execInr (dst : Operand) (s : State) : Host.Outcome State Fault Refusal :=
  updateOperand dst s inc8

/-- DCR (R136, R137). -/
def execDcr (dst : Operand) (s : State) : Host.Outcome State Fault Refusal :=
  updateOperand dst s dec8

/-- INX (R138). -/
def execInx (dst : Wide) (s : State) : Host.Outcome State Fault Refusal :=
  retire 5 (.ok (s.setWide dst (s.getWide dst + 1)))

/-- DCX (R139). -/
def execDcx (dst : Wide) (s : State) : Host.Outcome State Fault Refusal :=
  retire 5 (.ok (s.setWide dst (s.getWide dst - 1)))

/-- DAD (R140). -/
def execDad (src : Wide) (s : State) : Host.Outcome State Fault Refusal :=
  let r := add16 s.hl (s.getWide src) s.flags
  retire 10 (.ok ((s.setPair .hl r.1).setFlags r.2))

/-- DAA (R141). -/
def execDaa (s : State) : Host.Outcome State Fault Refusal :=
  retire 4 (.ok (s.setAccumulator (daa8 s.regs.a s.flags)))

end Sys2Proof.Machine
end

