-- ==== Sys2Proof/Machine/Branch.lean ====
section
/-! DEFINITION. Branch, call, return and restart (spec/44_branch.md R183 to R214). PC, when these run, is the address of the
next instruction, or, in an interrupt dispatch, of the interrupted one (R16). No flag is written. -/

namespace Sys2Proof.Machine

/-- JMP (R183). -/
def execJmp (a16 : Word) (s : State) : Host.Outcome State Fault Refusal :=
  retire 10 (.ok (s.setPc a16))

/-- JNZ (R184, R185). -/
def execJnz (a16 : Word) (s : State) : Host.Outcome State Fault Refusal :=
  jumpIf .nz a16 s

/-- JZ (R184, R186). -/
def execJz (a16 : Word) (s : State) : Host.Outcome State Fault Refusal :=
  jumpIf .z a16 s

/-- JNC (R184, R187). -/
def execJnc (a16 : Word) (s : State) : Host.Outcome State Fault Refusal :=
  jumpIf .nc a16 s

/-- JC (R184, R188). -/
def execJc (a16 : Word) (s : State) : Host.Outcome State Fault Refusal :=
  jumpIf .c a16 s

/-- JPO (R184, R189). -/
def execJpo (a16 : Word) (s : State) : Host.Outcome State Fault Refusal :=
  jumpIf .po a16 s

/-- JPE (R184, R190). -/
def execJpe (a16 : Word) (s : State) : Host.Outcome State Fault Refusal :=
  jumpIf .pe a16 s

/-- JP (R184, R191). -/
def execJp (a16 : Word) (s : State) : Host.Outcome State Fault Refusal :=
  jumpIf .p a16 s

/-- JM (R184, R192). -/
def execJm (a16 : Word) (s : State) : Host.Outcome State Fault Refusal :=
  jumpIf .m a16 s

/-- CALL (R193). -/
def execCall (a16 : Word) (s : State) : Host.Outcome State Fault Refusal :=
  retire 17 (s.callTo a16)

/-- CNZ (R194, R195). -/
def execCnz (a16 : Word) (s : State) : Host.Outcome State Fault Refusal :=
  callIf .nz a16 s

/-- CZ (R194, R196). -/
def execCz (a16 : Word) (s : State) : Host.Outcome State Fault Refusal :=
  callIf .z a16 s

/-- CNC (R194, R197). -/
def execCnc (a16 : Word) (s : State) : Host.Outcome State Fault Refusal :=
  callIf .nc a16 s

/-- CC (R194, R198). -/
def execCc (a16 : Word) (s : State) : Host.Outcome State Fault Refusal :=
  callIf .c a16 s

/-- CPO (R194, R199). -/
def execCpo (a16 : Word) (s : State) : Host.Outcome State Fault Refusal :=
  callIf .po a16 s

/-- CPE (R194, R200). -/
def execCpe (a16 : Word) (s : State) : Host.Outcome State Fault Refusal :=
  callIf .pe a16 s

/-- CP (R194, R201). -/
def execCp (a16 : Word) (s : State) : Host.Outcome State Fault Refusal :=
  callIf .p a16 s

/-- CM (R194, R202). -/
def execCm (a16 : Word) (s : State) : Host.Outcome State Fault Refusal :=
  callIf .m a16 s

/-- RET (R203); also the return from an interrupt handler (R271). -/
def execRet (s : State) : Host.Outcome State Fault Refusal :=
  retire 10 s.returnFrom

/-- RNZ (R204, R205). -/
def execRnz (s : State) : Host.Outcome State Fault Refusal :=
  returnIf .nz s

/-- RZ (R204, R206). -/
def execRz (s : State) : Host.Outcome State Fault Refusal :=
  returnIf .z s

/-- RNC (R204, R207). -/
def execRnc (s : State) : Host.Outcome State Fault Refusal :=
  returnIf .nc s

/-- RC (R204, R208). -/
def execRc (s : State) : Host.Outcome State Fault Refusal :=
  returnIf .c s

/-- RPO (R204, R209). -/
def execRpo (s : State) : Host.Outcome State Fault Refusal :=
  returnIf .po s

/-- RPE (R204, R210). -/
def execRpe (s : State) : Host.Outcome State Fault Refusal :=
  returnIf .pe s

/-- RP (R204, R211). -/
def execRp (s : State) : Host.Outcome State Fault Refusal :=
  returnIf .p s

/-- RM (R204, R212). -/
def execRm (s : State) : Host.Outcome State Fault Refusal :=
  returnIf .m s

/-- PCHL (R213). -/
def execPchl (s : State) : Host.Outcome State Fault Refusal :=
  retire 5 (.ok (s.setPc s.hl))

/-- RST n (R214): a call to `8n`; as an interrupt vector, the whole of trap entry (R267). -/
def execRst (n : Fin 8) (s : State) : Host.Outcome State Fault Refusal :=
  retire 11 (s.callTo (State.rstTarget n))

end Sys2Proof.Machine
end

