-- ==== Sys2Proof/Machine/DataTransfer.lean ====
section
/-! DEFINITION. Data movement (spec/40_data_transfer.md R100 to R111). None of these reads or writes a flag. -/

namespace Sys2Proof.Machine

/-- The cycles of MOV: 5 between registers, 7 with M (R100 to R102). -/
def movCycles : Operand → Operand → Nat
  | .reg _, .reg _ => 5
  | _, _ => 7

/-- MOV (R100, R101, R102). The source, and the address HL, are read before the destination is written. -/
def execMov (dst src : Operand) (s : State) : Host.Outcome State Fault Refusal :=
  retire (movCycles dst src) (do
    let v ← s.readOperand src
    s.writeOperand dst v)

/-- MVI (R103, R104). -/
def execMvi (dst : Operand) (d8 : Byte) (s : State) : Host.Outcome State Fault Refusal :=
  retire (operandCycles dst 7 10) (s.writeOperand dst d8)

/-- LXI (R105). -/
def execLxi (dst : Wide) (d16 : Word) (s : State) : Host.Outcome State Fault Refusal :=
  retire 10 (.ok (s.setWide dst d16))

/-- STAX (R106). -/
def execStax (p : IndexPair) (s : State) : Host.Outcome State Fault Refusal :=
  retire 7 (s.writeByte (s.indexAddress p) s.regs.a)

/-- LDAX (R107). -/
def execLdax (p : IndexPair) (s : State) : Host.Outcome State Fault Refusal :=
  retire 7 (do
    let v ← s.readByte (s.indexAddress p)
    pure (s.setReg .a v))

/-- SHLD (R108): L at the address, H at the next. -/
def execShld (a16 : Word) (s : State) : Host.Outcome State Fault Refusal :=
  retire 16 (s.writeWord a16 s.hl)

/-- LHLD (R109): L from the address, H from the next. -/
def execLhld (a16 : Word) (s : State) : Host.Outcome State Fault Refusal :=
  retire 16 (do
    let v ← s.readWord a16
    pure (s.setPair .hl v))

/-- STA (R110). -/
def execSta (a16 : Word) (s : State) : Host.Outcome State Fault Refusal :=
  retire 13 (s.writeByte a16 s.regs.a)

/-- LDA (R111). -/
def execLda (a16 : Word) (s : State) : Host.Outcome State Fault Refusal :=
  retire 13 (do
    let v ← s.readByte a16
    pure (s.setReg .a v))

end Sys2Proof.Machine
end

