-- ==== Sys2Proof/Machine/IoControl.lean ====
section
/-! DEFINITION. Input/output and control (spec/46_io_control.md R240 to R249). No flag is written. -/

namespace Sys2Proof.Machine

/-- NOP (R240). -/
def execNop (s : State) : Host.Outcome State Fault Refusal :=
  retire 4 (.ok s)

/-- HLT (R241): it raises `UnimplementedOpcode`, whatever the state; there is no halted state (R278, C2). -/
def execHlt (_ : State) : Host.Outcome State Fault Refusal :=
  .fault .unimplementedOpcode

/-- The twelve undefined bytes (R242): they raise `UnimplementedOpcode`, whatever the state (C4). -/
def execUndefined (_ : UndefinedByte) (_ : State) : Host.Outcome State Fault Refusal :=
  .fault .unimplementedOpcode

/-- IN (R245). -/
def execInp (port : Byte) (s : State) : Host.Outcome State Fault Refusal :=
  retire 10 (do
    let (v, s1) ← s.portRead port
    pure (s1.setReg .a v))

/-- OUT (R246). -/
def execOut (port : Byte) (s : State) : Host.Outcome State Fault Refusal :=
  retire 10 (s.portWrite port s.regs.a)

/-- EI (R248): at once; there is no delay of one instruction. -/
def execEi (s : State) : Host.Outcome State Fault Refusal :=
  retire 4 (.ok (s.setInte true))

/-- DI (R249): a pending request stays pending. -/
def execDi (s : State) : Host.Outcome State Fault Refusal :=
  retire 4 (.ok (s.setInte false))

end Sys2Proof.Machine
end

