-- ==== Sys2Proof/Machine/Logical.lean ====
section
/-! DEFINITION. Logical and compare instructions (spec/42_logical.md R151 to R165). -/

namespace Sys2Proof.Machine

/-- ANA (R151, R152). -/
def execAna (src : Operand) (s : State) : Host.Outcome State Fault Refusal :=
  withOperand src s (fun v => s.accLogic (s.regs.a &&& v))

/-- XRA (R153, R154). -/
def execXra (src : Operand) (s : State) : Host.Outcome State Fault Refusal :=
  withOperand src s (fun v => s.accLogic (s.regs.a ^^^ v))

/-- ORA (R155, R156). -/
def execOra (src : Operand) (s : State) : Host.Outcome State Fault Refusal :=
  withOperand src s (fun v => s.accLogic (s.regs.a ||| v))

/-- CMP (R157, R158): A is not written. -/
def execCmp (src : Operand) (s : State) : Host.Outcome State Fault Refusal :=
  withOperand src s (fun v => s.accCompare v)

/-- ANI (R159). -/
def execAni (d8 : Byte) (s : State) : Host.Outcome State Fault Refusal :=
  retire 7 (.ok (s.accLogic (s.regs.a &&& d8)))

/-- XRI (R160). -/
def execXri (d8 : Byte) (s : State) : Host.Outcome State Fault Refusal :=
  retire 7 (.ok (s.accLogic (s.regs.a ^^^ d8)))

/-- ORI (R161). -/
def execOri (d8 : Byte) (s : State) : Host.Outcome State Fault Refusal :=
  retire 7 (.ok (s.accLogic (s.regs.a ||| d8)))

/-- CPI (R162): A is not written. -/
def execCpi (d8 : Byte) (s : State) : Host.Outcome State Fault Refusal :=
  retire 7 (.ok (s.accCompare d8))

/-- CMA (R163): no flag is written. -/
def execCma (s : State) : Host.Outcome State Fault Refusal :=
  retire 4 (.ok (s.setReg .a (s.regs.a ^^^ 0xFF)))

/-- STC (R164). -/
def execStc (s : State) : Host.Outcome State Fault Refusal :=
  retire 4 (.ok (s.setFlags { s.flags with carry := true }))

/-- CMC (R165). -/
def execCmc (s : State) : Host.Outcome State Fault Refusal :=
  retire 4 (.ok (s.setFlags { s.flags with carry := !s.flags.carry }))

end Sys2Proof.Machine
end

