-- ==== Sys2Proof/Machine/Rotate.lean ====
section
/-! DEFINITION. The four rotates (spec/43_rotate.md R170 to R173): A and Carry, 4 cycles each. -/

namespace Sys2Proof.Machine

/-- RLC (R170). -/
def execRlc (s : State) : Host.Outcome State Fault Refusal :=
  retire 4 (.ok (s.setAccumulator (rotateLeft s.regs.a s.flags)))

/-- RRC (R171). -/
def execRrc (s : State) : Host.Outcome State Fault Refusal :=
  retire 4 (.ok (s.setAccumulator (rotateRight s.regs.a s.flags)))

/-- RAL (R172). -/
def execRal (s : State) : Host.Outcome State Fault Refusal :=
  retire 4 (.ok (s.setAccumulator (rotateLeftThroughCarry s.regs.a s.flags)))

/-- RAR (R173). -/
def execRar (s : State) : Host.Outcome State Fault Refusal :=
  retire 4 (.ok (s.setAccumulator (rotateRightThroughCarry s.regs.a s.flags)))

end Sys2Proof.Machine
end

