-- ==== Sys2Proof/Machine/Stack.lean ====
section
/-! DEFINITION. Stack and exchange instructions (spec/45_stack_exchange.md R220 to R226). -/

namespace Sys2Proof.Machine

/-- PUSH (R220, R221). -/
def execPush (src : StackReg) (s : State) : Host.Outcome State Fault Refusal :=
  retire 11 (s.push16 (s.getStackReg src))

/-- POP (R222, R223). -/
def execPop (dst : StackReg) (s : State) : Host.Outcome State Fault Refusal :=
  retire 10 (do
    let (v, s1) ← s.pop16
    pure (s1.setStackReg dst v))

/-- XCHG (R224): both pairs are read before either is written. -/
def execXchg (s : State) : Host.Outcome State Fault Refusal :=
  retire 4 (.ok ((s.setPair .hl (s.getPair .de)).setPair .de (s.getPair .hl)))

/-- XTHL (R225): read both stack bytes, write both, then HL. SP is not changed. -/
def execXthl (s : State) : Host.Outcome State Fault Refusal :=
  retire 18 (do
    let v ← s.readWord s.sp
    let s1 ← s.writeWord s.sp s.hl
    pure (s1.setPair .hl v))

/-- SPHL (R226). -/
def execSphl (s : State) : Host.Outcome State Fault Refusal :=
  retire 5 (.ok (s.setSp s.hl))

end Sys2Proof.Machine
end

