-- ==== Sys2Proof/Machine/Step.lean ====
section
/-! DEFINITION. `Step()` (spec/60_exceptions.md R264), the only operation that advances the machine, and the placing of one
instruction where the next Step fetches. -/

namespace Sys2Proof.Machine

/-- `Step()` (R264): accept the pending interrupt or fetch, then execute. The operand an instruction carries is read out of
the latches: after a fetch they hold its operand bytes (R67), in an interrupt dispatch what an earlier fetch left there
(R268; log 8). -/
def step (s : State) : Host.Outcome State Fault Refusal :=
  match s.currentOpcode with
  | .ok (op, s1) => exec (decodeInstr op s1.z s1.w) s1
  | .error f => .fault f

/-- Store a byte where the fetch will look for it; an address the machine does not have is left alone. -/
def State.plant (s : State) (a : Word) (v : Byte) : State :=
  if s.inBounds a then s.setMem (Memory.write s.mem a.toNat v) else s

/-- The state with the instruction of a table word stored at PC, PC+1 and PC+2, so that the very next Step runs it. A request
that the next Step would accept in place of the fetch (R265) is taken out of the slot; one that stays masked is left. It
stands for the host's `Load` (R292; log 11). -/
def State.withFetchWord (s : State) (nbits w : Nat) : State :=
  (((s.plant s.pc (tableByte nbits w 0)).plant (s.pc + 1) (tableByte nbits w 1)).plant (s.pc + 2) (tableByte nbits w 2)).setPending
    (if s.inte then none else s.pending)

end Sys2Proof.Machine
end

