-- ==== Sys2Proof/Machine/HostOps.lean ====
section
/-! DEFINITION. What the host does to the core, always between Steps (spec/70_reset_and_hazards.md R290 to R295,
spec/60_exceptions.md R269), and a run under any schedule of it. Construction is `State.construct`; the port hooks are called
from inside a Step (Ops.lean). -/

namespace Sys2Proof.Machine

namespace State

/-- `RequestInterrupt(v)` (R27, R269): any byte, whatever the slot held, whatever INTE is. -/
def requestInterrupt (s : State) (v : Byte) : State := s.setPending (some v)

/-- `Load(bytes, startAddress)` (R292): byte `i` to index `startAddress + i`; when `startAddress + length` exceeds the
capacity nothing is copied and the error goes to the host. -/
def load (s : State) (bytes : List Byte) (start : Nat) : Except Fault State :=
  if start + bytes.length ≤ s.config.memCapacity then .ok (s.setMem (Memory.writeAll s.mem start bytes))
  else .error .outOfBoundsAccess

/-- The host registered a `ReadPort` hook (R34, R295). -/
def registerReadPort (s : State) : State := { s with config := { s.config with readPortBound := true } }

/-- The host registered a `WritePort` hook (R34, R295). -/
def registerWritePort (s : State) : State := { s with config := { s.config with writePortBound := true } }

/-- The host sets PC, SP and the other registers (R293). -/
def setRegisters (s : State) (pc : Word) (r : ResetRegs) : State :=
  { s with regs := r.regs, w := r.w, z := r.z, sp := r.sp, flags := r.flags, pc := pc }

/-- The environment lines up what the next `ReadPort` call that has no answer yet will answer (R245, log 5). -/
def answerPort (s : State) (v : Byte) : State := { s with portAnswers := s.portAnswers ++ [v] }

end State

/-- One thing the host does at a point between two Steps (R295). -/
inductive HostAction where
  /-- Call `Step()`. -/
  | step
  /-- Call `RequestInterrupt(vector)`. -/
  | requestInterrupt (vector : Byte)
  /-- Call `Load(bytes, start)`. -/
  | load (bytes : List Byte) (start : Nat)
  /-- Set PC, SP and the other registers. -/
  | setRegisters (pc : Word) (r : ResetRegs)
  /-- Line up the answer of a later `ReadPort` call. -/
  | answerPort (answer : Byte)
deriving DecidableEq, Repr

/-- The effect of one host action. A `Load` that fails is the host's error: memory is unchanged and the CPU is not faulted
(R292, U17). -/
def hostAct (s : State) : HostAction → Host.Outcome State Fault Refusal
  | .step => step s
  | .requestInterrupt v => .next (s.requestInterrupt v)
  | .load bytes start =>
    match s.load bytes start with
    | .ok t => .next t
    | .error _ => .next s
  | .setRegisters pc r => .next (s.setRegisters pc r)
  | .answerPort v => .next (s.answerPort v)

/-- A run under a schedule of host actions (R6, R56, U10), ending at the first fault (R263, R296). -/
def drive (s : State) : List HostAction → Host.Outcome State Fault Refusal
  | [] => .next s
  | act :: rest =>
    match hostAct s act with
    | .next t => drive t rest
    | .fault f => .fault f
    | .refused r => .refused r

end Sys2Proof.Machine
end

