-- ==== Sys2Proof/Safety.lean ====
section
/-! DEFINITION. What counts as a safe run: no fault and no refusal. A fault is never a successful end
(spec/70_reset_and_hazards.md R296); a run of the machine ends only when the host stops or a Step faults. And the invariant
that every operation of the machine keeps. -/

namespace Sys2Proof.Machine

/-- The next state of an outcome, if it is one. -/
def nextOf : Host.Outcome State Fault Refusal → Option State
  | .next s => some s
  | .fault _ => none
  | .refused _ => none

/-- The fault of an outcome, if it is one. -/
def faultOf : Host.Outcome State Fault Refusal → Option Fault
  | .next _ => none
  | .fault f => some f
  | .refused _ => none

/-- `k` Steps run without a fault or a refusal. -/
def SafeFor (k : Nat) (s : State) : Prop := ∃ t, Host.Core.run Sys2Proof.core k s = .next t

/-- Every listed address is an index of Memory, `0 .. MEM_CAPACITY - 1` (R31, R40). -/
abbrev State.memInBounds (s : State) : Prop := ∀ x ∈ s.mem, x.1 < s.config.memCapacity

/-- The invariant: memory in its canonical form, listing only addresses that exist, and a capacity the spec gives meaning to
(R31, R40, D17). -/
abbrev State.Inv (s : State) : Prop := Memory.wf s.mem ∧ s.memInBounds ∧ s.config.wf

end Sys2Proof.Machine
end

