-- ==== Sys2Proof/Certificates/Slice0/Obligations.lean ====
section
/-! DEFINITION. The statements for the provers, `def Obligations.<Name> : Prop`, after a vocabulary of their own that says
registers, flags, addresses and stored bytes in plain numbers, apart from the model's helpers.

A statement whose conclusion is `exec i s = .next (s with ...)` says three things at once: the instruction completes, what it
writes, and that every other field of State (registers, flags, PC, SP, latches, INTE, the pending slot, memory,
configuration, port history) is as it was. Where a form stores to memory the new memory is given by what reading each
address answers.

The model's own conventions that many statements touch: that a flag no rule names is unchanged is the spec's reading D8
(log 19; the rules themselves say "Flags: none" or list the flags); Sign is bit 7 of the result (G4, log 14). -/

namespace Sys2Proof.Claims

open Sys2Proof.Machine

/-! ### Registers -/

/-- The register a code of R62 names. -/
def regOf (g : Regs) : Reg → Byte
  | .a => g.a
  | .b => g.b
  | .c => g.c
  | .d => g.d
  | .e => g.e
  | .h => g.h
  | .l => g.l

/-- `g'` is `g` with register `r` holding `v` and every other register as it was. -/
def OnlyReg (g g' : Regs) (r : Reg) (v : Byte) : Prop := ∀ q, regOf g' q = if q = r then v else regOf g q

/-- High and low register of a pair (R12). -/
def pairRegs : Pair → Reg × Reg
  | .bc => (.b, .c)
  | .de => (.d, .e)
  | .hl => (.h, .l)

/-- A pair as a number, `high * 256 + low` (R12). -/
def pairNat (g : Regs) (p : Pair) : Nat := (regOf g (pairRegs p).1).toNat * 256 + (regOf g (pairRegs p).2).toNat

/-- `g'` is `g` with the pair holding the number `v` and every other register as it was. -/
def OnlyPair (g g' : Regs) (p : Pair) (v : Nat) : Prop :=
  pairNat g' p = v ∧ ∀ q, q ≠ (pairRegs p).1 → q ≠ (pairRegs p).2 → regOf g' q = regOf g q

/-- HL as a number, the address of every M operand. -/
def hlNat (s : State) : Nat := s.regs.h.toNat * 256 + s.regs.l.toNat

/-- The addend of DAD, the operand of INX and DCX, as a number (R63). -/
def wideNat (s : State) : Wide → Nat
  | .pair p => pairNat s.regs p
  | .sp => s.sp.toNat

/-- The address of STAX and LDAX as a number (R106, R107). -/
def indexNat (s : State) : IndexPair → Nat
  | .bc => s.regs.b.toNat * 256 + s.regs.c.toNat
  | .de => s.regs.d.toNat * 256 + s.regs.e.toNat

/-! ### Memory -/

/-- The address is an index of Memory (R41). -/
def InMemory (s : State) (a : Nat) : Prop := a < s.config.memCapacity

/-- The address after `a`, modulo 65536 (R53). -/
def nextAddress (a : Nat) : Nat := (a + 1) % 65536

/-- Memory `m'` is `m` with byte `v` at `a`; every other address reads as before. -/
def StoredOne (m m' : Memory) (a : Nat) (v : Byte) : Prop :=
  ∀ b, Memory.read m' b = if b = a then v else Memory.read m b

/-- Memory `m'` is `m` with byte `v` at `a` and byte `w` at `c`; every other address reads as before. -/
def StoredTwo (m m' : Memory) (a : Nat) (v : Byte) (c : Nat) (w : Byte) : Prop :=
  ∀ b, Memory.read m' b = if b = a then v else if b = c then w else Memory.read m b

/-- SP - 1 modulo 65536: where a push stores the high byte (R181). -/
def pushHighAddress (s : State) : Nat := (s.sp.toNat + 65535) % 65536

/-- SP - 2 modulo 65536: where a push stores the low byte (R181). -/
def pushLowAddress (s : State) : Nat := (s.sp.toNat + 65534) % 65536

/-- Both bytes of a push are in Memory. -/
def Pushable (s : State) : Prop := InMemory s (pushHighAddress s) ∧ InMemory s (pushLowAddress s)

/-- Both bytes of a pop are in Memory. -/
def Poppable (s : State) : Prop := InMemory s s.sp.toNat ∧ InMemory s (nextAddress s.sp.toNat)

/-- Memory after pushing the bytes `hi` and `lo` (R181). -/
def Pushed (s : State) (m : Memory) (hi lo : Byte) : Prop :=
  StoredTwo s.mem m (pushHighAddress s) hi (pushLowAddress s) lo

/-- The two bytes a pop reads, as a number: low byte at SP, high byte at SP + 1 (R182). -/
def poppedNat (s : State) : Nat :=
  (Memory.read s.mem (nextAddress s.sp.toNat)).toNat * 256 + (Memory.read s.mem s.sp.toNat).toNat

/-- The operand of an accumulator operation can be read: a register always, M when HL is in Memory. -/
def OperandReadable (s : State) : Operand → Prop
  | .reg _ => True
  | .m => InMemory s (hlNat s)

/-- The value of a register or M operand (R62). -/
def operandValue (s : State) : Operand → Byte
  | .reg r => regOf s.regs r
  | .m => Memory.read s.mem (hlNat s)

/-- `n` cycles for a register operand, `k` for M. -/
def cyclesFor (o : Operand) (n k : Nat) : Nat := if o = .m then k else n

/-! ### Flags and arithmetic -/

/-- A flag as a number. -/
def flagNat (b : Bool) : Nat := if b then 1 else 0

/-- Sign, Zero and Parity from an 8-bit result (R21, R22): 128 or more, equal to 0, an even number of bits set. -/
def SzpOf (v : Byte) (f : Flags) : Prop :=
  f.sign = decide (128 ≤ v.toNat) ∧ f.zero = decide (v.toNat = 0) ∧
    f.parity = decide (((List.range 8).filter (fun i => v.toNat.testBit i)).length % 2 = 0)

/-- Result and flags of `add8(a, b, c)` (R120). -/
def AddResult (a b c : Nat) (v : Byte) (f : Flags) : Prop :=
  v.toNat = (a + b + c) % 256 ∧ SzpOf v f ∧ f.carry = decide (255 < a + b + c) ∧
    f.auxCarry = decide (15 < a % 16 + b % 16 + c)

/-- Result and flags of `sub8(a, b, c)` (R121): the borrow is true when the subtrahend part is larger. -/
def SubResult (a b c : Nat) (v : Byte) (f : Flags) : Prop :=
  v.toNat = (a + 512 - (b + c)) % 256 ∧ SzpOf v f ∧ f.carry = decide (a < b + c) ∧
    f.auxCarry = decide (a % 16 < b % 16 + c)

/-- Flags of a logical operation with result `v` (R150). -/
def LogicFlags (v : Byte) (f : Flags) : Prop := SzpOf v f ∧ f.carry = false ∧ f.auxCarry = false

/-- `v` is `x` and `y` combined bit by bit. -/
def BitwiseOf (op : Bool → Bool → Bool) (x y v : Byte) : Prop :=
  ∀ i, i < 8 → v.toNat.testBit i = op (x.toNat.testBit i) (y.toNat.testBit i)

/-- The value and flags of DAA on the number `a` with the flags `f` (R141). -/
def DaaResult (a : Nat) (f : Flags) (v : Byte) (g : Flags) : Prop :=
  let one := 9 < a % 16 ∨ f.auxCarry = true
  let a1 := if one then (a + 6) % 256 else a
  let two := 9 < a1 / 16 ∨ f.carry = true
  v.toNat = (if two then (a1 + 96) % 256 else a1) ∧ SzpOf v g ∧ (g.carry = true ↔ two) ∧
    (one → g.auxCarry = decide (9 ≤ a % 16)) ∧ (¬ one → g.auxCarry = f.auxCarry)

/-- The packed Flags byte (R19, R20): the five flags at their places and the fixed bit 1. -/
def flagsByte (f : Flags) : Byte :=
  BitVec.ofNat 8 (128 * flagNat f.sign + 64 * flagNat f.zero + 16 * flagNat f.auxCarry + 4 * flagNat f.parity + 2 +
    flagNat f.carry)

/-- The truth of a branch condition (R64). -/
def condTrue (f : Flags) : Cond → Bool
  | .nz => f.zero == false
  | .z => f.zero == true
  | .nc => f.carry == false
  | .c => f.carry == true
  | .po => f.parity == false
  | .pe => f.parity == true
  | .p => f.sign == false
  | .m => f.sign == true

/-- The conditional jump with a condition (R185 to R192). -/
def jumpOn : Cond → Word → Instr
  | .nz => .jnz
  | .z => .jz
  | .nc => .jnc
  | .c => .jc
  | .po => .jpo
  | .pe => .jpe
  | .p => .jp
  | .m => .jm

/-- The conditional call with a condition (R195 to R202). -/
def callOn : Cond → Word → Instr
  | .nz => .cnz
  | .z => .cz
  | .nc => .cnc
  | .c => .cc
  | .po => .cpo
  | .pe => .cpe
  | .p => .cp
  | .m => .cm

/-- The conditional return with a condition (R205 to R212). -/
def returnOn : Cond → Instr
  | .nz => .rnz
  | .z => .rz
  | .nc => .rnc
  | .c => .rc
  | .po => .rpo
  | .pe => .rpe
  | .p => .rp
  | .m => .rm

/-! ### Steps -/

/-- The thirteen opcode bytes that fault (R65, R261). -/
def faultingBytes : List Byte := [0x08, 0x10, 0x18, 0x20, 0x28, 0x30, 0x38, 0x76, 0xCB, 0xD9, 0xDD, 0xED, 0xFD]

/-- A Step that begins in this state accepts the pending request (R265). -/
def Accepts (s : State) : Prop := s.inte = true ∧ s.pending ≠ none

/-- `bytes` stand in Memory from PC on, addresses modulo 65536. -/
def AtPc (s : State) (bytes : List Byte) : Prop :=
  ∀ k (h : k < bytes.length), InMemory s ((s.pc.toNat + k) % 65536) ∧
    Memory.read s.mem ((s.pc.toNat + k) % 65536) = bytes[k]

/-- SP when the destination of LXI, INX, DCX is SP and `v` is what it gets; a pair leaves SP (R63). -/
def spIfWide (s : State) (dst : Wide) (v : Word) : Word := if dst = .sp then v else s.sp

/-- SP after an instruction that completes, from R17 and the instruction's rule. -/
def spAfter (s : State) : Instr → Word
  | .lxi dst d16 => spIfWide s dst d16
  | .inx dst => spIfWide s dst (s.sp + 1)
  | .dcx dst => spIfWide s dst (s.sp - 1)
  | .sphl => BitVec.ofNat 16 (hlNat s)
  | .push _ | .call _ | .rst _ => s.sp - 2
  | .pop _ | .ret => s.sp + 2
  | .cnz _ => if s.flags.zero = false then s.sp - 2 else s.sp
  | .cz _ => if s.flags.zero = true then s.sp - 2 else s.sp
  | .cnc _ => if s.flags.carry = false then s.sp - 2 else s.sp
  | .cc _ => if s.flags.carry = true then s.sp - 2 else s.sp
  | .cpo _ => if s.flags.parity = false then s.sp - 2 else s.sp
  | .cpe _ => if s.flags.parity = true then s.sp - 2 else s.sp
  | .cp _ => if s.flags.sign = false then s.sp - 2 else s.sp
  | .cm _ => if s.flags.sign = true then s.sp - 2 else s.sp
  | .rnz => if s.flags.zero = false then s.sp + 2 else s.sp
  | .rz => if s.flags.zero = true then s.sp + 2 else s.sp
  | .rnc => if s.flags.carry = false then s.sp + 2 else s.sp
  | .rc => if s.flags.carry = true then s.sp + 2 else s.sp
  | .rpo => if s.flags.parity = false then s.sp + 2 else s.sp
  | .rpe => if s.flags.parity = true then s.sp + 2 else s.sp
  | .rp => if s.flags.sign = false then s.sp + 2 else s.sp
  | .rm => if s.flags.sign = true then s.sp + 2 else s.sp
  | .mov _ _ | .mvi _ _ | .stax _ | .ldax _ | .shld _ | .lhld _ | .sta _ | .lda _ => s.sp
  | .add _ | .adc _ | .sub _ | .sbb _ | .adi _ | .aci _ | .sui _ | .sbi _ | .inr _ | .dcr _ | .dad _ => s.sp
  | .ana _ | .xra _ | .ora _ | .cmp _ | .ani _ | .xri _ | .ori _ | .cpi _ => s.sp
  | .daa | .cma | .stc | .cmc | .rlc | .rrc | .ral | .rar => s.sp
  | .jmp _ | .jnz _ | .jz _ | .jnc _ | .jc _ | .jpo _ | .jpe _ | .jp _ | .jm _ | .pchl => s.sp
  | .xchg | .xthl => s.sp
  | .inp _ | .out _ | .ei | .di | .nop | .hlt | .undefined _ => s.sp

/-- The instructions that may store to Memory (R40 files: the stores, the read-modify-writes on M, the pushes, XTHL). -/
def storesToMemory : Instr → Bool
  | .mov dst _ | .mvi dst _ | .inr dst | .dcr dst => dst == .m
  | .stax _ | .shld _ | .sta _ | .push _ | .xthl | .rst _ => true
  | .call _ | .cnz _ | .cz _ | .cnc _ | .cc _ | .cpo _ | .cpe _ | .cp _ | .cm _ => true
  | .lxi _ _ | .ldax _ | .lhld _ | .lda _ | .inx _ | .dcx _ | .dad _ => false
  | .add _ | .adc _ | .sub _ | .sbb _ | .adi _ | .aci _ | .sui _ | .sbi _ => false
  | .ana _ | .xra _ | .ora _ | .cmp _ | .ani _ | .xri _ | .ori _ | .cpi _ => false
  | .daa | .cma | .stc | .cmc | .rlc | .rrc | .ral | .rar => false
  | .jmp _ | .jnz _ | .jz _ | .jnc _ | .jc _ | .jpo _ | .jpe _ | .jp _ | .jm _ | .pchl => false
  | .ret | .rnz | .rz | .rnc | .rc | .rpo | .rpe | .rp | .rm => false
  | .pop _ | .xchg | .sphl => false
  | .inp _ | .out _ | .ei | .di | .nop | .hlt | .undefined _ => false

/-- The two bytes pushed, with their addresses: `hi` at SP - 1 and `lo` at SP - 2 (R181). -/
def pushedBytes (s : State) (hi lo : Byte) : List (Nat × Byte) := [(pushHighAddress s, hi), (pushLowAddress s, lo)]

/-- The return address as CALL, a taken Ccc and RST push it (R193, R194, R214). -/
def pushedPc (s : State) : List (Nat × Byte) :=
  pushedBytes s (BitVec.ofNat 8 (s.pc.toNat / 256)) (BitVec.ofNat 8 (s.pc.toNat % 256))

/-- The bytes an instruction stores, with their addresses, when it completes; computed from the state it starts in, by
its rule. -/
def storedBytes (s : State) : Instr → List (Nat × Byte)
  | .mov dst src => if dst = .m then [(hlNat s, operandValue s src)] else []
  | .mvi dst d8 => if dst = .m then [(hlNat s, d8)] else []
  | .inr dst => if dst = .m then [(hlNat s, operandValue s .m + 1)] else []
  | .dcr dst => if dst = .m then [(hlNat s, operandValue s .m - 1)] else []
  | .stax p => [(indexNat s p, s.regs.a)]
  | .sta a16 => [(a16.toNat, s.regs.a)]
  | .shld a16 => [(a16.toNat, s.regs.l), (nextAddress a16.toNat, s.regs.h)]
  | .xthl => [(s.sp.toNat, s.regs.l), (nextAddress s.sp.toNat, s.regs.h)]
  | .push (.pair p) => pushedBytes s (regOf s.regs (pairRegs p).1) (regOf s.regs (pairRegs p).2)
  | .push .psw => pushedBytes s s.regs.a (flagsByte s.flags)
  | .call _ | .rst _ => pushedPc s
  | .cnz _ => if s.flags.zero = false then pushedPc s else []
  | .cz _ => if s.flags.zero = true then pushedPc s else []
  | .cnc _ => if s.flags.carry = false then pushedPc s else []
  | .cc _ => if s.flags.carry = true then pushedPc s else []
  | .cpo _ => if s.flags.parity = false then pushedPc s else []
  | .cpe _ => if s.flags.parity = true then pushedPc s else []
  | .cp _ => if s.flags.sign = false then pushedPc s else []
  | .cm _ => if s.flags.sign = true then pushedPc s else []
  | .lxi _ _ | .ldax _ | .lhld _ | .lda _ | .inx _ | .dcx _ | .dad _ => []
  | .add _ | .adc _ | .sub _ | .sbb _ | .adi _ | .aci _ | .sui _ | .sbi _ => []
  | .ana _ | .xra _ | .ora _ | .cmp _ | .ani _ | .xri _ | .ori _ | .cpi _ => []
  | .daa | .cma | .stc | .cmc | .rlc | .rrc | .ral | .rar => []
  | .jmp _ | .jnz _ | .jz _ | .jnc _ | .jc _ | .jpo _ | .jpe _ | .jp _ | .jm _ | .pchl => []
  | .ret | .rnz | .rz | .rnc | .rc | .rpo | .rpe | .rp | .rm => []
  | .pop _ | .xchg | .sphl => []
  | .inp _ | .out _ | .ei | .di | .nop | .hlt | .undefined _ => []

/-- The byte at an address after an instruction that completes: the one it stored there, else the one that was there. -/
def byteAfter (s : State) (i : Instr) (a : Nat) : Byte := ((storedBytes s i).lookup a).getD (Memory.read s.mem a)

/-- The control transfers, the only instructions that write PC in execute (R16). -/
def transfersControl : Instr → Bool
  | .jmp _ | .jnz _ | .jz _ | .jnc _ | .jc _ | .jpo _ | .jpe _ | .jp _ | .jm _ | .pchl | .rst _ => true
  | .call _ | .cnz _ | .cz _ | .cnc _ | .cc _ | .cpo _ | .cpe _ | .cp _ | .cm _ => true
  | .ret | .rnz | .rz | .rnc | .rc | .rpo | .rpe | .rp | .rm => true
  | .mov _ _ | .mvi _ _ | .stax _ | .ldax _ | .shld _ | .lhld _ | .sta _ | .lda _ | .lxi _ _ => false
  | .add _ | .adc _ | .sub _ | .sbb _ | .adi _ | .aci _ | .sui _ | .sbi _ | .inr _ | .dcr _ => false
  | .inx _ | .dcx _ | .dad _ => false
  | .ana _ | .xra _ | .ora _ | .cmp _ | .ani _ | .xri _ | .ori _ | .cpi _ => false
  | .daa | .cma | .stc | .cmc | .rlc | .rrc | .ral | .rar => false
  | .push _ | .pop _ | .xchg | .xthl | .sphl => false
  | .inp _ | .out _ | .ei | .di | .nop | .hlt | .undefined _ => false

/-- Which of Sign, Zero, AuxCarry, Parity (together) and Carry an instruction may write, from the table of R25. -/
def writesFlags : Instr → Bool × Bool
  | .add _ | .adi _ | .sub _ | .sui _ | .cmp _ | .cpi _ | .adc _ | .aci _ | .sbb _ | .sbi _ => (true, true)
  | .ana _ | .ani _ | .xra _ | .xri _ | .ora _ | .ori _ | .daa => (true, true)
  | .pop dst => (dst == .psw, dst == .psw)
  | .inr _ | .dcr _ => (true, false)
  | .dad _ | .rlc | .rrc | .ral | .rar | .stc | .cmc => (false, true)
  | .mov _ _ | .mvi _ _ | .lxi _ _ | .stax _ | .ldax _ | .shld _ | .lhld _ | .sta _ | .lda _ => (false, false)
  | .inx _ | .dcx _ | .cma => (false, false)
  | .jmp _ | .jnz _ | .jz _ | .jnc _ | .jc _ | .jpo _ | .jpe _ | .jp _ | .jm _ => (false, false)
  | .call _ | .cnz _ | .cz _ | .cnc _ | .cc _ | .cpo _ | .cpe _ | .cp _ | .cm _ => (false, false)
  | .ret | .rnz | .rz | .rnc | .rc | .rpo | .rpe | .rp | .rm | .pchl | .rst _ => (false, false)
  | .push _ | .xchg | .xthl | .sphl | .inp _ | .out _ | .ei | .di | .nop | .hlt | .undefined _ => (false, false)

/-- An outcome with its next state changed by `g`; a fault or a refusal is kept. -/
def mapNext (g : State → State) : Host.Outcome State Fault Refusal → Host.Outcome State Fault Refusal
  | .next t => .next (g t)
  | .fault f => .fault f
  | .refused r => .refused r

/-- Run instructions one after the other, with no fetch between them. -/
def execAll : List Instr → State → Host.Outcome State Fault Refusal
  | [], s => .next s
  | i :: rest, s =>
    match exec i s with
    | .next t => execAll rest t
    | .fault f => .fault f
    | .refused r => .refused r

end Sys2Proof.Claims

open Sys2Proof Sys2Proof.Machine Sys2Proof.Claims

/-! ## Encoding (30_encoding.md). The opcode map is general knowledge by the spec's own word (G1, D1; log 13). -/

/-- Decoding an encoded well-formed instruction, whatever bytes follow it, gives the instruction and those bytes. -/
def Obligations.DecodeOfEncodeGivesTheInstruction : Prop :=
  ∀ (i : Instr) (rest : List Byte), i.wf = true → decode (encode i ++ rest) = .ok (i, rest)

/-- Every opcode byte with any operand bytes decodes to a well-formed instruction whose encoding is those very bytes, as many
as the opcode's length: no two byte strings share an instruction and no bit is dropped. -/
def Obligations.EncodeOfDecodeGivesTheBytes : Prop :=
  ∀ op z w : Byte, (decodeInstr op z w).wf = true ∧
    encode (decodeInstr op z w) = [op, z, w].take (opLength op)

/-- The first byte alone fixes the length, which is 1, 2 or 3: a list is refused exactly when it is shorter than that, and
else exactly that many bytes are taken off it, whatever follows (R60). -/
def Obligations.DecodeTakesTheLengthOfTheFirstByte : Prop :=
  (∀ op : Byte, opLength op = 1 ∨ opLength op = 2 ∨ opLength op = 3) ∧
  (∀ bytes : List Byte, (∃ e, decode bytes = .error e) ↔ (∀ op rest, bytes = op :: rest → bytes.length < opLength op)) ∧
  (∀ (op : Byte) (rest left : List Byte) (i : Instr), decode (op :: rest) = .ok (i, left) →
    left = (op :: rest).drop (opLength op))

/-- Words written out from the encoding of their rules, one and more of each family. -/
def Obligations.SpecWordsDecode : Prop :=
  decode [0b01000001] = .ok (.mov (.reg .b) (.reg .c), []) ∧
  decode [0b00110110, 0xFF] = .ok (.mvi .m 0xFF, []) ∧
  decode [0b00110001, 0x00, 0x24] = .ok (.lxi .sp 0x2400, []) ∧
  decode [0b10001110] = .ok (.adc .m, []) ∧
  decode [0b00011001] = .ok (.dad (.pair .de), []) ∧
  decode [0b10111101] = .ok (.cmp (.reg .l), []) ∧
  decode [0b00011111] = .ok (.rar, []) ∧
  decode [0b11100010, 0x10, 0x00] = .ok (.jpo 0x0010, []) ∧
  decode [0b11010111] = .ok (.rst 2, []) ∧
  decode [0b11110101] = .ok (.push .psw, []) ∧
  decode [0b11011011, 0x01] = .ok (.inp 0x01, []) ∧
  decode [0b01110110] = .ok (.hlt, []) ∧
  decode [0b11001011] = .ok (.undefined .xCB, [])

/-! ## The Step (60_exceptions.md, 30_encoding.md R67) -/

/-- When no request is accepted and the bytes at PC decode to an instruction, the Step is that instruction's execution, with
PC advanced past it, Z holding its second byte and W its third where it has them, and all else as it was. -/
def Obligations.StepRunsTheDecodedInstruction : Prop :=
  ∀ (s : State) (i : Instr) (bytes : List Byte), ¬ Accepts s → decode bytes = .ok (i, []) → AtPc s bytes →
    step s = exec i { s with pc := s.pc + BitVec.ofNat 16 bytes.length, z := bytes.getD 1 s.z, w := bytes.getD 2 s.w }

/-- When a byte of the instruction at PC is outside Memory and no request is accepted, the Step faults (R67, R270). -/
def Obligations.FetchOutsideMemoryFaults : Prop :=
  ∀ s : State, ¬ Accepts s →
    (¬ InMemory s s.pc.toNat ∨
      (2 ≤ opLength (Memory.read s.mem s.pc.toNat) ∧ ¬ InMemory s ((s.pc.toNat + 1) % 65536)) ∨
      (opLength (Memory.read s.mem s.pc.toNat) = 3 ∧ ¬ InMemory s ((s.pc.toNat + 2) % 65536))) →
    step s = .fault .outOfBoundsAccess

/-- An accepted vector is executed as the instruction it encodes, with no fetch: PC and the latches stay, the operand bytes
are what the latches hold, and the slot is empty (R265, R268; the reading for a vector other than RST is D15, log 22). -/
def Obligations.AcceptedVectorIsExecuted : Prop :=
  ∀ (s : State) (v : Byte) (i : Instr), s.inte = true → s.pending = some v →
    decode ([v, s.z, s.w].take (opLength v)) = .ok (i, []) →
    step s = exec i { s with pending := none }

/-- With INTE true and an RST opcode pending the Step is the trap entry: PC is pushed as it stands, control goes to `8n`, the
slot is empty, 11 cycles, and registers, flags, latches and INTE are as they were; with a stack byte outside Memory it
faults (R267). -/
def Obligations.RstInterruptEntersItsHandler : Prop :=
  ∀ (s : State) (n : Fin 8), Memory.wf s.mem → s.inte = true →
    s.pending = some (BitVec.ofNat 8 (0xC7 + 8 * n.val)) →
    (Pushable s → ∃ m, Pushed s m (BitVec.ofNat 8 (s.pc.toNat / 256)) (BitVec.ofNat 8 (s.pc.toNat % 256)) ∧
      step s = .next { s with
        pending := none, mem := m, sp := s.sp - 2, pc := BitVec.ofNat 16 (8 * n.val), cycles := 11 }) ∧
    (¬ Pushable s → step s = .fault .outOfBoundsAccess)

/-- A Step empties the pending slot when, and only when, it holds a request and INTE is true; otherwise the request stays.
No instruction reads or writes the slot: with any other content of it the same happens to everything else. The host's
request overwrites whatever it held (R27). -/
def Obligations.PendingSlotIsEmptiedOnlyByAcceptance : Prop :=
  (∀ s t : State, step s = .next t → t.pending = if s.inte then none else s.pending) ∧
  (∀ (i : Instr) (s : State) (p : Option Byte),
    exec i { s with pending := p } = mapNext (fun t => { t with pending := p }) (exec i s)) ∧
  (∀ (s : State) (v : Byte), s.requestInterrupt v = { s with pending := some v })

/-- EI sets INTE, DI clears it, nothing else writes it, and no instruction reads it: with the other value of INTE the same
happens to everything else; accepting an interrupt does not clear it (R26). -/
def Obligations.OnlyEiAndDiTouchInte : Prop :=
  (∀ (i : Instr) (s t : State), exec i s = .next t →
    t.inte = match i with
      | .ei => true
      | .di => false
      | _ => s.inte) ∧
  (∀ (i : Instr) (s : State) (b : Bool), i ≠ .ei → i ≠ .di →
    exec i { s with inte := b } = mapNext (fun t => { t with inte := b }) (exec i s)) ∧
  (∀ (s : State) (b : Bool), exec .ei { s with inte := b } = exec .ei s ∧ exec .di { s with inte := b } = exec .di s) ∧
  (∀ s t : State, s.inte = true → s.pending ≠ none → s.pending ≠ some 0xF3 → step s = .next t → t.inte = true)

/-- A Step raises `UnimplementedOpcode` exactly when the byte it dispatches, the accepted vector or the byte fetched at PC, is
one of the thirteen (R261). -/
def Obligations.UnimplementedOpcodeIsRaisedByExactlyThirteenBytes : Prop :=
  ∀ s : State, step s = .fault .unimplementedOpcode ↔
    (s.inte = true ∧ ∃ v ∈ faultingBytes, s.pending = some v) ∨
      (¬ Accepts s ∧ InMemory s s.pc.toNat ∧ Memory.read s.mem s.pc.toNat ∈ faultingBytes)

/-- With the default capacity no Step faults out of bounds (R43, which the spec derives). -/
def Obligations.FullMemoryIsNeverOutOfBounds : Prop :=
  ∀ s : State, s.config.memCapacity = 65536 → step s ≠ .fault .outOfBoundsAccess

/-- An unfaulted machine of full capacity with both hooks bound always takes a Step, unless the byte it dispatches is one of
the thirteen, and the Step returns one of nine cycle counts (95_test_vectors.md section 4, property 11; R278). -/
def Obligations.EveryOtherStepCompletes : Prop :=
  ∀ s : State, s.config.memCapacity = 65536 → s.config.readPortBound = true → s.config.writePortBound = true →
    (Accepts s → ∀ v ∈ faultingBytes, s.pending ≠ some v) →
    (¬ Accepts s → Memory.read s.mem s.pc.toNat ∉ faultingBytes) →
    ∃ t, step s = .next t ∧ t.cycles ∈ [4, 5, 7, 10, 11, 13, 16, 17, 18]

/-- No instruction and no Step is refused: every instruction has its meaning. -/
def Obligations.NothingIsRefused : Prop :=
  (∀ (i : Instr) (s : State) (r : Refusal), exec i s ≠ .refused r) ∧ ∀ (s : State) (r : Refusal), step s ≠ .refused r

/-! ## Invariants and whole-machine rules -/

/-- Every Step keeps the invariant: memory canonical, listing only addresses that exist, a capacity of 1 to 65536. -/
def Obligations.InvariantIsKeptByEveryStep : Prop :=
  ∀ s t : State, s.Inv → step s = .next t → t.Inv

/-- Every schedule of host actions, Steps among them, keeps the invariant. -/
def Obligations.InvariantIsKeptByEveryHostSchedule : Prop :=
  ∀ (acts : List HostAction) (s t : State), s.Inv → drive s acts = .next t → t.Inv

/-- The invariant holds at reset, and of every machine constructed on a canonical memory that fits its capacity. After
construction PC is 0000, INTE false and the slot empty, whatever the values R35 leaves open (the spec's own decision D11,
log 3); reset is one such machine, of the default capacity. -/
def Obligations.ConstructionMeetsTheInvariant : Prop :=
  (∀ (c : Config) (r : ResetRegs) (m : Memory), c.wf → Memory.wf m → (∀ x ∈ m, x.1 < c.memCapacity) →
    (State.construct c r m).Inv) ∧
  (∀ (c : Config) (r : ResetRegs) (m : Memory), (State.construct c r m).pc = 0 ∧ (State.construct c r m).inte = false ∧
    (State.construct c r m).pending = none) ∧
  State.reset.Inv ∧ State.reset.pc = 0 ∧ State.reset.inte = false ∧ State.reset.pending = none ∧
  State.reset.mem = [] ∧ State.reset.config.memCapacity = 65536

/-- No instruction writes the latches in execute (R11; that only the fetch writes them is D26, log 23), and no instruction
and no Step changes the capacity or the presence of a hook (10_state.md, opening paragraph and section 8). -/
def Obligations.LatchesAndConfigurationAreKept : Prop :=
  (∀ (i : Instr) (s t : State), exec i s = .next t → t.w = s.w ∧ t.z = s.z ∧ t.config = s.config) ∧
  ∀ s t : State, step s = .next t → t.config = s.config

/-- The flags an instruction does not write, by the table of R25, are unchanged (the reading for flags no rule names is D8,
log 19). -/
def Obligations.UnlistedFlagsAreUnchanged : Prop :=
  ∀ (i : Instr) (s t : State), exec i s = .next t →
    ((writesFlags i).1 = false → t.flags.sign = s.flags.sign ∧ t.flags.zero = s.flags.zero ∧
      t.flags.auxCarry = s.flags.auxCarry ∧ t.flags.parity = s.flags.parity) ∧
    ((writesFlags i).2 = false → t.flags.carry = s.flags.carry)

/-- SP changes only by LXI SP, INX SP, DCX SP, SPHL and by the pushes and pops, each by its rule, modulo 65536 (R17). -/
def Obligations.StackPointerChangesOnlyByItsInstructions : Prop :=
  ∀ (i : Instr) (s t : State), exec i s = .next t → t.sp = spAfter s i

/-- An instruction that is no store leaves the whole memory as it was (R31). -/
def Obligations.OnlyStoresChangeMemory : Prop :=
  ∀ (i : Instr) (s t : State), storesToMemory i = false → exec i s = .next t →
    ∀ a, Memory.read t.mem a = Memory.read s.mem a

/-- An instruction that is no control transfer leaves PC as the fetch left it (R16). -/
def Obligations.OnlyTransfersWritePc : Prop :=
  ∀ (i : Instr) (s t : State), transfersControl i = false → exec i s = .next t → t.pc = s.pc

/-- Every store is seen by the very next fetch (R59; that it simply works is D28, log 28). After any instruction that
completes, memory holds the bytes it stored and elsewhere what was there; and when those bytes, from the new PC on, decode to
an instruction of any length, the next Step executes that instruction, whichever of its bytes were just stored, unless it
accepts a request. -/
def Obligations.StoreIsSeenByTheNextFetch : Prop :=
  ∀ (i : Instr) (s t : State), Memory.wf s.mem → exec i s = .next t →
    (∀ a, Memory.read t.mem a = byteAfter s i a) ∧
    ∀ (j : Instr) (bytes : List Byte), ¬ Accepts t → decode bytes = .ok (j, []) →
      (∀ k (h : k < bytes.length), InMemory s ((t.pc.toNat + k) % 65536) ∧
        byteAfter s i ((t.pc.toNat + k) % 65536) = bytes[k]) →
      step t = exec j { t with
        pc := t.pc + BitVec.ofNat 16 bytes.length, z := bytes.getD 1 t.z, w := bytes.getD 2 t.w }

/-- `MemRead` and `MemWrite` (R41, R42): a read answers the byte and a write replaces it and no other; outside Memory both
fault. -/
def Obligations.MemoryPrimitives : Prop :=
  ∀ (s : State) (a : Word) (v : Byte), Memory.wf s.mem →
    (InMemory s a.toNat → s.readByte a = .ok (Memory.read s.mem a.toNat) ∧
      ∃ m, s.writeByte a v = .ok { s with mem := m } ∧ StoredOne s.mem m a.toNat v) ∧
    (¬ InMemory s a.toNat → s.readByte a = .error .outOfBoundsAccess ∧ s.writeByte a v = .error .outOfBoundsAccess)

/-- `Load` copies byte `i` to `start + i` and changes nothing else; when it does not fit it copies nothing and the host gets
the error (R292; that nothing is copied is D13, log 27). -/
def Obligations.LoadCopiesItsBytes : Prop :=
  ∀ (s : State) (bytes : List Byte) (start : Nat), Memory.wf s.mem →
    (start + bytes.length ≤ s.config.memCapacity → ∃ m, s.load bytes start = .ok { s with mem := m } ∧
      (∀ k (h : k < bytes.length), Memory.read m (start + k) = bytes[k]) ∧
      (∀ a, a < start ∨ start + bytes.length ≤ a → Memory.read m a = Memory.read s.mem a)) ∧
    (s.config.memCapacity < start + bytes.length →
      s.load bytes start = .error .outOfBoundsAccess ∧ hostAct s (.load bytes start) = .next s)

/-- Writing a pair and reading it gives the value, its bytes are `v>>8` and `v&0xFF`, for BC, DE, HL and WZ (R13). -/
def Obligations.PairsRoundTrip : Prop :=
  ∀ (s : State) (v : Word),
    (∀ p : Pair, (s.setPair p v).getPair p = v ∧
      (regOf (s.setPair p v).regs (pairRegs p).1).toNat = v.toNat / 256 ∧
      (regOf (s.setPair p v).regs (pairRegs p).2).toNat = v.toNat % 256) ∧
    (s.setWz v).wz = v ∧ (s.setWz v).w.toNat = v.toNat / 256 ∧ (s.setWz v).z.toNat = v.toNat % 256

/-! ## Data movement (40_data_transfer.md) -/

/-- MOV between registers copies the source and changes nothing else, 5 cycles; MOV r,M loads the byte at HL and MOV M,r
stores the register there, 7 cycles; the last two fault when HL is outside Memory (R100, R101, R102). -/
def Obligations.MovCopiesLoadsAndStores : Prop :=
  ∀ s : State, Memory.wf s.mem →
    (∀ dst src : Reg, ∃ g, OnlyReg s.regs g dst (regOf s.regs src) ∧
      exec (.mov (.reg dst) (.reg src)) s = .next { s with regs := g, cycles := 5 }) ∧
    (InMemory s (hlNat s) → ∀ r : Reg,
      (∃ g, OnlyReg s.regs g r (Memory.read s.mem (hlNat s)) ∧
        exec (.mov (.reg r) .m) s = .next { s with regs := g, cycles := 7 }) ∧
      (∃ m, StoredOne s.mem m (hlNat s) (regOf s.regs r) ∧
        exec (.mov .m (.reg r)) s = .next { s with mem := m, cycles := 7 })) ∧
    (¬ InMemory s (hlNat s) → ∀ r : Reg, exec (.mov (.reg r) .m) s = .fault .outOfBoundsAccess ∧
      exec (.mov .m (.reg r)) s = .fault .outOfBoundsAccess)

/-- MVI loads the immediate into a register, 7 cycles, or stores it at HL, 10 cycles (R103, R104; the 10 is D16, log 24). -/
def Obligations.MviWritesItsImmediate : Prop :=
  ∀ (s : State) (r : Reg) (d8 : Byte), Memory.wf s.mem →
    (∃ g, OnlyReg s.regs g r d8 ∧ exec (.mvi (.reg r) d8) s = .next { s with regs := g, cycles := 7 }) ∧
    (InMemory s (hlNat s) → ∃ m, StoredOne s.mem m (hlNat s) d8 ∧
      exec (.mvi .m d8) s = .next { s with mem := m, cycles := 10 }) ∧
    (¬ InMemory s (hlNat s) → exec (.mvi .m d8) s = .fault .outOfBoundsAccess)

/-- LXI loads the 16-bit immediate into a pair or SP, 10 cycles (R105). -/
def Obligations.LxiLoadsAPairOrSp : Prop :=
  ∀ (s : State) (d16 : Word),
    (∀ p : Pair, ∃ g, OnlyPair s.regs g p d16.toNat ∧
      exec (.lxi (.pair p) d16) s = .next { s with regs := g, cycles := 10 }) ∧
    exec (.lxi .sp d16) s = .next { s with sp := d16, cycles := 10 }

/-- STAX stores A at BC or DE, LDAX loads A from there, 7 cycles; they fault outside Memory (R106, R107). -/
def Obligations.StaxAndLdaxGoThroughThePair : Prop :=
  ∀ (s : State) (p : IndexPair), Memory.wf s.mem →
    (InMemory s (indexNat s p) →
      (∃ m, StoredOne s.mem m (indexNat s p) s.regs.a ∧ exec (.stax p) s = .next { s with mem := m, cycles := 7 }) ∧
      exec (.ldax p) s =
        .next { s with regs := { s.regs with a := Memory.read s.mem (indexNat s p) }, cycles := 7 }) ∧
    (¬ InMemory s (indexNat s p) →
      exec (.stax p) s = .fault .outOfBoundsAccess ∧ exec (.ldax p) s = .fault .outOfBoundsAccess)

/-- SHLD stores L at the address and H at the next, LHLD loads them from there, 16 cycles, the next address modulo 65536;
they fault when either is outside Memory (R108, R109; byte order D10, wrap D9, log 20). -/
def Obligations.ShldAndLhldMoveHl : Prop :=
  ∀ (s : State) (a : Word), Memory.wf s.mem →
    (InMemory s a.toNat ∧ InMemory s (nextAddress a.toNat) →
      (∃ m, StoredTwo s.mem m a.toNat s.regs.l (nextAddress a.toNat) s.regs.h ∧
        exec (.shld a) s = .next { s with mem := m, cycles := 16 }) ∧
      exec (.lhld a) s = .next { s with
        regs := { s.regs with l := Memory.read s.mem a.toNat, h := Memory.read s.mem (nextAddress a.toNat) },
        cycles := 16 }) ∧
    (¬ (InMemory s a.toNat ∧ InMemory s (nextAddress a.toNat)) →
      exec (.shld a) s = .fault .outOfBoundsAccess ∧ exec (.lhld a) s = .fault .outOfBoundsAccess)

/-- STA stores A at the address, LDA loads it from there, 13 cycles; they fault outside Memory (R110, R111). -/
def Obligations.StaAndLdaMoveA : Prop :=
  ∀ (s : State) (a : Word), Memory.wf s.mem →
    (InMemory s a.toNat →
      (∃ m, StoredOne s.mem m a.toNat s.regs.a ∧ exec (.sta a) s = .next { s with mem := m, cycles := 13 }) ∧
      exec (.lda a) s = .next { s with regs := { s.regs with a := Memory.read s.mem a.toNat }, cycles := 13 }) ∧
    (¬ InMemory s a.toNat → exec (.sta a) s = .fault .outOfBoundsAccess ∧ exec (.lda a) s = .fault .outOfBoundsAccess)

/-! ## Arithmetic (41_arithmetic.md) -/

/-- ADD r, ADD M, ADI: A becomes the sum modulo 256, all five flags by R120 with no carry in (R122, R123, R130). -/
def Obligations.AddWritesSumAndFlags : Prop :=
  ∀ s : State,
    (∀ src, OperandReadable s src → ∃ v f, AddResult s.regs.a.toNat (operandValue s src).toNat 0 v f ∧
      exec (.add src) s =
        .next { s with regs := { s.regs with a := v }, flags := f, cycles := cyclesFor src 4 7 }) ∧
    (∀ src, ¬ OperandReadable s src → exec (.add src) s = .fault .outOfBoundsAccess) ∧
    (∀ d8, ∃ v f, AddResult s.regs.a.toNat d8.toNat 0 v f ∧
      exec (.adi d8) s = .next { s with regs := { s.regs with a := v }, flags := f, cycles := 7 })

/-- ADC r, ADC M, ACI: as ADD with the incoming Carry in the sum and in the nibble sum (the latter is D4, log 16). -/
def Obligations.AdcAddsTheCarry : Prop :=
  ∀ s : State,
    (∀ src, OperandReadable s src →
      ∃ v f, AddResult s.regs.a.toNat (operandValue s src).toNat (flagNat s.flags.carry) v f ∧
        exec (.adc src) s =
          .next { s with regs := { s.regs with a := v }, flags := f, cycles := cyclesFor src 4 7 }) ∧
    (∀ src, ¬ OperandReadable s src → exec (.adc src) s = .fault .outOfBoundsAccess) ∧
    (∀ d8, ∃ v f, AddResult s.regs.a.toNat d8.toNat (flagNat s.flags.carry) v f ∧
      exec (.aci d8) s = .next { s with regs := { s.regs with a := v }, flags := f, cycles := 7 })

/-- SUB r, SUB M, SUI: A becomes the difference modulo 256, Carry and AuxCarry are the borrows (R126, R127, R132). -/
def Obligations.SubWritesDifferenceAndBorrows : Prop :=
  ∀ s : State,
    (∀ src, OperandReadable s src → ∃ v f, SubResult s.regs.a.toNat (operandValue s src).toNat 0 v f ∧
      exec (.sub src) s =
        .next { s with regs := { s.regs with a := v }, flags := f, cycles := cyclesFor src 4 7 }) ∧
    (∀ src, ¬ OperandReadable s src → exec (.sub src) s = .fault .outOfBoundsAccess) ∧
    (∀ d8, ∃ v f, SubResult s.regs.a.toNat d8.toNat 0 v f ∧
      exec (.sui d8) s = .next { s with regs := { s.regs with a := v }, flags := f, cycles := 7 })

/-- SBB r, SBB M, SBI: as SUB with the incoming Carry as borrow (how it enters the comparisons is D5, log 16). -/
def Obligations.SbbSubtractsTheBorrow : Prop :=
  ∀ s : State,
    (∀ src, OperandReadable s src →
      ∃ v f, SubResult s.regs.a.toNat (operandValue s src).toNat (flagNat s.flags.carry) v f ∧
        exec (.sbb src) s =
          .next { s with regs := { s.regs with a := v }, flags := f, cycles := cyclesFor src 4 7 }) ∧
    (∀ src, ¬ OperandReadable s src → exec (.sbb src) s = .fault .outOfBoundsAccess) ∧
    (∀ d8, ∃ v f, SubResult s.regs.a.toNat d8.toNat (flagNat s.flags.carry) v f ∧
      exec (.sbi d8) s = .next { s with regs := { s.regs with a := v }, flags := f, cycles := 7 })

/-- INR and DCR add or subtract 1 modulo 256 on a register (5 cycles) or on the byte at HL (10 cycles), write Sign, Zero,
Parity and AuxCarry and leave Carry (R134 to R137; the flags other than Carry are D6, log 17). -/
def Obligations.InrAndDcrStepByOne : Prop :=
  ∀ s : State, Memory.wf s.mem →
    (∀ r : Reg,
      (∃ v g f, v.toNat = ((regOf s.regs r).toNat + 1) % 256 ∧ OnlyReg s.regs g r v ∧ SzpOf v f ∧
        f.auxCarry = decide ((regOf s.regs r).toNat % 16 = 15) ∧ f.carry = s.flags.carry ∧
        exec (.inr (.reg r)) s = .next { s with regs := g, flags := f, cycles := 5 }) ∧
      (∃ v g f, v.toNat = ((regOf s.regs r).toNat + 255) % 256 ∧ OnlyReg s.regs g r v ∧ SzpOf v f ∧
        f.auxCarry = decide ((regOf s.regs r).toNat % 16 = 0) ∧ f.carry = s.flags.carry ∧
        exec (.dcr (.reg r)) s = .next { s with regs := g, flags := f, cycles := 5 })) ∧
    (InMemory s (hlNat s) →
      (∃ v m f, v.toNat = ((Memory.read s.mem (hlNat s)).toNat + 1) % 256 ∧ StoredOne s.mem m (hlNat s) v ∧ SzpOf v f ∧
        f.auxCarry = decide ((Memory.read s.mem (hlNat s)).toNat % 16 = 15) ∧ f.carry = s.flags.carry ∧
        exec (.inr .m) s = .next { s with mem := m, flags := f, cycles := 10 }) ∧
      (∃ v m f, v.toNat = ((Memory.read s.mem (hlNat s)).toNat + 255) % 256 ∧ StoredOne s.mem m (hlNat s) v ∧ SzpOf v f ∧
        f.auxCarry = decide ((Memory.read s.mem (hlNat s)).toNat % 16 = 0) ∧ f.carry = s.flags.carry ∧
        exec (.dcr .m) s = .next { s with mem := m, flags := f, cycles := 10 })) ∧
    (¬ InMemory s (hlNat s) →
      exec (.inr .m) s = .fault .outOfBoundsAccess ∧ exec (.dcr .m) s = .fault .outOfBoundsAccess)

/-- INX and DCX add or subtract 1 modulo 65536 on a pair or SP, 5 cycles, no flag (R138, R139; the instructions and their
meaning are D2, log 15). -/
def Obligations.InxAndDcxStepAPair : Prop :=
  ∀ s : State,
    (∀ p : Pair,
      (∃ g, OnlyPair s.regs g p ((pairNat s.regs p + 1) % 65536) ∧
        exec (.inx (.pair p)) s = .next { s with regs := g, cycles := 5 }) ∧
      (∃ g, OnlyPair s.regs g p ((pairNat s.regs p + 65535) % 65536) ∧
        exec (.dcx (.pair p)) s = .next { s with regs := g, cycles := 5 })) ∧
    exec (.inx .sp) s = .next { s with sp := BitVec.ofNat 16 (s.sp.toNat + 1), cycles := 5 } ∧
    exec (.dcx .sp) s = .next { s with sp := BitVec.ofNat 16 (s.sp.toNat + 65535), cycles := 5 }

/-- DAD adds a pair or SP into HL modulo 65536; Carry is the overflow past 0xFFFF, no other flag changes, 10 cycles
(R140). -/
def Obligations.DadAddsIntoHl : Prop :=
  ∀ (s : State) (src : Wide), ∃ g, OnlyPair s.regs g .hl ((hlNat s + wideNat s src) % 65536) ∧
    exec (.dad src) s = .next { s with
      regs := g, flags := { s.flags with carry := decide (0xFFFF < hlNat s + wideNat s src) }, cycles := 10 }

/-- DAA corrects A in two steps, by the reading of R141 (D7, C8, log 18), 4 cycles. -/
def Obligations.DaaCorrectsInTwoSteps : Prop :=
  ∀ s : State, ∃ v f, DaaResult s.regs.a.toNat s.flags v f ∧
    exec .daa s = .next { s with regs := { s.regs with a := v }, flags := f, cycles := 4 }

/-! ## Logic (42_logical.md) -/

/-- ANA, XRA, ORA with a register or M, and ANI, XRI, ORI: A combined bit by bit, Carry and AuxCarry cleared, Sign, Zero,
Parity from the result (R150 to R156, R159 to R161). -/
def Obligations.LogicCombinesBitByBit : Prop :=
  ∀ s : State,
    (∀ src, OperandReadable s src →
      (∃ v f, BitwiseOf and s.regs.a (operandValue s src) v ∧ LogicFlags v f ∧ exec (.ana src) s =
        .next { s with regs := { s.regs with a := v }, flags := f, cycles := cyclesFor src 4 7 }) ∧
      (∃ v f, BitwiseOf xor s.regs.a (operandValue s src) v ∧ LogicFlags v f ∧ exec (.xra src) s =
        .next { s with regs := { s.regs with a := v }, flags := f, cycles := cyclesFor src 4 7 }) ∧
      (∃ v f, BitwiseOf or s.regs.a (operandValue s src) v ∧ LogicFlags v f ∧ exec (.ora src) s =
        .next { s with regs := { s.regs with a := v }, flags := f, cycles := cyclesFor src 4 7 })) ∧
    (∀ src, ¬ OperandReadable s src → exec (.ana src) s = .fault .outOfBoundsAccess ∧
      exec (.xra src) s = .fault .outOfBoundsAccess ∧ exec (.ora src) s = .fault .outOfBoundsAccess) ∧
    (∀ d8,
      (∃ v f, BitwiseOf and s.regs.a d8 v ∧ LogicFlags v f ∧
        exec (.ani d8) s = .next { s with regs := { s.regs with a := v }, flags := f, cycles := 7 }) ∧
      (∃ v f, BitwiseOf xor s.regs.a d8 v ∧ LogicFlags v f ∧
        exec (.xri d8) s = .next { s with regs := { s.regs with a := v }, flags := f, cycles := 7 }) ∧
      (∃ v f, BitwiseOf or s.regs.a d8 v ∧ LogicFlags v f ∧
        exec (.ori d8) s = .next { s with regs := { s.regs with a := v }, flags := f, cycles := 7 }))

/-- CMP and CPI write the flags of `A - operand` and leave A: Zero iff equal, Carry iff A is below, unsigned (R157, R158,
R162). -/
def Obligations.CompareWritesOnlyFlags : Prop :=
  ∀ s : State,
    (∀ src, OperandReadable s src → ∃ d f, SubResult s.regs.a.toNat (operandValue s src).toNat 0 d f ∧
      f.zero = decide (s.regs.a = operandValue s src) ∧ f.carry = decide (s.regs.a.toNat < (operandValue s src).toNat) ∧
      exec (.cmp src) s = .next { s with flags := f, cycles := cyclesFor src 4 7 }) ∧
    (∀ src, ¬ OperandReadable s src → exec (.cmp src) s = .fault .outOfBoundsAccess) ∧
    (∀ d8 : Byte, ∃ d f, SubResult s.regs.a.toNat d8.toNat 0 d f ∧
      f.zero = decide (s.regs.a = d8) ∧ f.carry = decide (s.regs.a.toNat < d8.toNat) ∧
      exec (.cpi d8) s = .next { s with flags := f, cycles := 7 })

/-- CMA inverts A and writes no flag; STC sets Carry; CMC inverts Carry; 4 cycles (R163 to R165; the three are D2, log 15). -/
def Obligations.ComplementAndCarryInstructions : Prop :=
  ∀ s : State,
    exec .cma s =
      .next { s with regs := { s.regs with a := BitVec.ofNat 8 (255 - s.regs.a.toNat) }, cycles := 4 } ∧
    exec .stc s = .next { s with flags := { s.flags with carry := true }, cycles := 4 } ∧
    exec .cmc s = .next { s with flags := { s.flags with carry := !s.flags.carry }, cycles := 4 }

/-! ## Rotates (43_rotate.md) -/

/-- RLC, RRC, RAL, RAR: the new A in numbers, Carry the bit rotated out, no other flag, 4 cycles (R170 to R173). -/
def Obligations.RotatesMoveOneBit : Prop :=
  ∀ s : State,
    exec .rlc s = .next { s with
      regs := { s.regs with a := BitVec.ofNat 8 (s.regs.a.toNat * 2 % 256 + s.regs.a.toNat / 128) },
      flags := { s.flags with carry := decide (128 ≤ s.regs.a.toNat) }, cycles := 4 } ∧
    exec .rrc s = .next { s with
      regs := { s.regs with a := BitVec.ofNat 8 (s.regs.a.toNat / 2 + s.regs.a.toNat % 2 * 128) },
      flags := { s.flags with carry := decide (s.regs.a.toNat % 2 = 1) }, cycles := 4 } ∧
    exec .ral s = .next { s with
      regs := { s.regs with a := BitVec.ofNat 8 (s.regs.a.toNat * 2 % 256 + flagNat s.flags.carry) },
      flags := { s.flags with carry := decide (128 ≤ s.regs.a.toNat) }, cycles := 4 } ∧
    exec .rar s = .next { s with
      regs := { s.regs with a := BitVec.ofNat 8 (s.regs.a.toNat / 2 + flagNat s.flags.carry * 128) },
      flags := { s.flags with carry := decide (s.regs.a.toNat % 2 = 1) }, cycles := 4 }

/-- Eight RLC or eight RRC restore A; nine RAL or nine RAR restore A and Carry; RLC then RRC restores A. After each of these
every other register and the flags Sign, Zero, AuxCarry and Parity are as they were (95_test_vectors.md section 4, property
6; that no rotate touches a flag but Carry is D8, log 19). -/
def Obligations.FullRotationsRestore : Prop :=
  ∀ s : State,
    (∀ is ∈ [List.replicate 8 Instr.rlc, List.replicate 8 Instr.rrc, [Instr.rlc, Instr.rrc]],
      ∃ t, execAll is s = .next t ∧ t.regs = s.regs ∧ t.flags = { s.flags with carry := t.flags.carry }) ∧
    (∀ i ∈ [Instr.ral, Instr.rar], ∃ t, execAll (List.replicate 9 i) s = .next t ∧ t.regs = s.regs ∧ t.flags = s.flags)

/-! ## Branches (44_branch.md) -/

/-- JMP goes to its target; a conditional jump goes there iff its condition holds, else PC stays at the next instruction; 10
cycles either way (R183 to R192). -/
def Obligations.JumpsGoToTheirTarget : Prop :=
  ∀ (s : State) (a : Word),
    exec (.jmp a) s = .next { s with pc := a, cycles := 10 } ∧
    ∀ cond : Cond, exec (jumpOn cond a) s =
      .next { s with pc := if condTrue s.flags cond then a else s.pc, cycles := 10 }

/-- CALL pushes PC, high byte at SP-1, low byte at SP-2, and goes to its target, 17 cycles; a conditional call does so iff
its condition holds, else it costs 11 and changes nothing; a push outside Memory faults (R193 to R202). -/
def Obligations.CallsPushTheReturnAddress : Prop :=
  ∀ (s : State) (a : Word), Memory.wf s.mem →
    (Pushable s → ∃ m, Pushed s m (BitVec.ofNat 8 (s.pc.toNat / 256)) (BitVec.ofNat 8 (s.pc.toNat % 256)) ∧
      exec (.call a) s = .next { s with mem := m, sp := s.sp - 2, pc := a, cycles := 17 } ∧
      ∀ cond, condTrue s.flags cond = true →
        exec (callOn cond a) s = .next { s with mem := m, sp := s.sp - 2, pc := a, cycles := 17 }) ∧
    (¬ Pushable s → exec (.call a) s = .fault .outOfBoundsAccess ∧
      ∀ cond, condTrue s.flags cond = true → exec (callOn cond a) s = .fault .outOfBoundsAccess) ∧
    (∀ cond, condTrue s.flags cond = false → exec (callOn cond a) s = .next { s with cycles := 11 })

/-- RET pops PC, low byte at SP, high byte at SP+1, 10 cycles; a conditional return does so iff its condition holds, at 11
cycles, else it costs 5 and changes nothing; a pop outside Memory faults (R203 to R212). -/
def Obligations.ReturnsPopTheirTarget : Prop :=
  ∀ s : State,
    (Poppable s →
      exec .ret s = .next { s with pc := BitVec.ofNat 16 (poppedNat s), sp := s.sp + 2, cycles := 10 } ∧
      ∀ cond, condTrue s.flags cond = true →
        exec (returnOn cond) s = .next { s with pc := BitVec.ofNat 16 (poppedNat s), sp := s.sp + 2, cycles := 11 }) ∧
    (¬ Poppable s → exec .ret s = .fault .outOfBoundsAccess ∧
      ∀ cond, condTrue s.flags cond = true → exec (returnOn cond) s = .fault .outOfBoundsAccess) ∧
    (∀ cond, condTrue s.flags cond = false → exec (returnOn cond) s = .next { s with cycles := 5 })

/-- PCHL goes to HL, 5 cycles; RST n pushes PC and goes to 8n, 11 cycles, and does not touch INTE (R213, R214). -/
def Obligations.PchlAndRstTransferControl : Prop :=
  ∀ (s : State) (n : Fin 8), Memory.wf s.mem →
    exec .pchl s = .next { s with pc := BitVec.ofNat 16 (hlNat s), cycles := 5 } ∧
    (Pushable s → ∃ m, Pushed s m (BitVec.ofNat 8 (s.pc.toNat / 256)) (BitVec.ofNat 8 (s.pc.toNat % 256)) ∧
      exec (.rst n) s =
        .next { s with mem := m, sp := s.sp - 2, pc := BitVec.ofNat 16 (8 * n.val), cycles := 11 }) ∧
    (¬ Pushable s → exec (.rst n) s = .fault .outOfBoundsAccess)

/-- A CALL and the RET that runs next in its callee give back PC and SP, with the registers and flags as they were (R193,
R203). -/
def Obligations.RetUndoesCall : Prop :=
  ∀ (s : State) (a : Word), Memory.wf s.mem → Pushable s →
    ∃ t, execAll [.call a, .ret] s = .next t ∧ t.pc = s.pc ∧ t.sp = s.sp ∧ t.regs = s.regs ∧ t.flags = s.flags

/-! ## Stack and exchange (45_stack_exchange.md) -/

/-- PUSH of a pair stores its high register at SP-1 and its low one at SP-2; PUSH PSW stores A and the packed Flags byte; SP
down by 2; a push outside Memory faults (R220, R221; 11 cycles is D16, log 24; the Flags byte's layout is D3, log 14). -/
def Obligations.PushStoresBothBytes : Prop :=
  ∀ s : State, Memory.wf s.mem →
    (Pushable s →
      (∀ p : Pair, ∃ m, Pushed s m (regOf s.regs (pairRegs p).1) (regOf s.regs (pairRegs p).2) ∧
        exec (.push (.pair p)) s = .next { s with mem := m, sp := s.sp - 2, cycles := 11 }) ∧
      (∃ m, Pushed s m s.regs.a (flagsByte s.flags) ∧
        exec (.push .psw) s = .next { s with mem := m, sp := s.sp - 2, cycles := 11 })) ∧
    (¬ Pushable s → ∀ x, exec (.push x) s = .fault .outOfBoundsAccess)

/-- POP of a pair loads its low register from SP and its high one from SP+1; POP PSW loads the five flags and A; SP up by 2,
memory unchanged; a pop outside Memory faults (R222, R223; 10 cycles is D16, log 24; the layout is D3, log 14). -/
def Obligations.PopLoadsBothBytes : Prop :=
  ∀ s : State,
    (Poppable s →
      (∀ p : Pair, ∃ g, OnlyPair s.regs g p (poppedNat s) ∧
        exec (.pop (.pair p)) s = .next { s with regs := g, sp := s.sp + 2, cycles := 10 }) ∧
      (exec (.pop .psw) s = .next { s with
        regs := { s.regs with a := Memory.read s.mem (nextAddress s.sp.toNat) },
        flags := {
          sign := (Memory.read s.mem s.sp.toNat).toNat.testBit 7
          zero := (Memory.read s.mem s.sp.toNat).toNat.testBit 6
          auxCarry := (Memory.read s.mem s.sp.toNat).toNat.testBit 4
          parity := (Memory.read s.mem s.sp.toNat).toNat.testBit 2
          carry := (Memory.read s.mem s.sp.toNat).toNat.testBit 0 },
        sp := s.sp + 2, cycles := 10 })) ∧
    (¬ Poppable s → ∀ x, exec (.pop x) s = .fault .outOfBoundsAccess)

/-- PUSH then POP of the same operand restores the registers, the flags and SP, for every SP: for PSW that is A and all five
flags in each of their 32 combinations (R24). The packed Flags byte always has bit 1 set and bits 3 and 5 clear, and every
combination is one that some byte loads. -/
def Obligations.PopUndoesPush : Prop :=
  (∀ (s : State) (x : StackReg), Memory.wf s.mem → Pushable s →
    ∃ t, execAll [.push x, .pop x] s = .next t ∧ t.regs = s.regs ∧ t.flags = s.flags ∧ t.sp = s.sp) ∧
  (∀ f : Flags, (packFlags f).toNat.testBit 1 = true ∧ (packFlags f).toNat.testBit 3 = false ∧
    (packFlags f).toNat.testBit 5 = false) ∧
  ∀ f : Flags, ∃ b : Byte, unpackFlags b = f

/-- XCHG exchanges HL and DE, 4 cycles; SPHL copies HL to SP, 5 cycles (R224, R226). -/
def Obligations.XchgAndSphlMoveHl : Prop :=
  ∀ s : State,
    exec .xchg s = .next { s with
      regs := { s.regs with h := s.regs.d, l := s.regs.e, d := s.regs.h, e := s.regs.l }, cycles := 4 } ∧
    exec .sphl s = .next { s with sp := BitVec.ofNat 16 (hlNat s), cycles := 5 }

/-- XTHL exchanges L with the byte at SP and H with the byte at SP+1, SP unchanged, 18 cycles; it faults when either is
outside Memory (R225; the pairing is D10, log 20). -/
def Obligations.XthlExchangesWithTheStack : Prop :=
  ∀ s : State, Memory.wf s.mem →
    (Poppable s → ∃ m, StoredTwo s.mem m s.sp.toNat s.regs.l (nextAddress s.sp.toNat) s.regs.h ∧
      exec .xthl s = .next { s with
        regs := { s.regs with l := Memory.read s.mem s.sp.toNat, h := Memory.read s.mem (nextAddress s.sp.toNat) },
        mem := m, cycles := 18 }) ∧
    (¬ Poppable s → exec .xthl s = .fault .outOfBoundsAccess)

/-! ## Input, output and control (46_io_control.md) -/

/-- IN calls the read hook once and puts its answer in A, whatever byte the environment answers, 10 cycles; with no hook it
faults (R245). What the hook answers when nothing is lined up is the free value (log 5); no claim is made of it. -/
def Obligations.InTakesTheAnswerIntoA : Prop :=
  ∀ (s : State) (port : Byte),
    (s.config.readPortBound = true →
      (∀ v rest, s.portAnswers = v :: rest → exec (.inp port) s = .next { s with
        regs := { s.regs with a := v }, portAnswers := rest, portEvents := s.portEvents ++ [.read port v],
        cycles := 10 }) ∧
      (s.portAnswers = [] → exec (.inp port) s = .next { s with
        regs := { s.regs with a := Config.portIn s.portEvents port },
        portEvents := s.portEvents ++ [.read port (Config.portIn s.portEvents port)], cycles := 10 })) ∧
    (s.config.readPortBound = false → exec (.inp port) s = .fault .missingPortHandler)

/-- OUT calls the write hook once with the port and A, changes nothing else, 10 cycles; with no hook it faults, and an absent
read hook does not matter (R246, R262). -/
def Obligations.OutSendsA : Prop :=
  ∀ (s : State) (port : Byte),
    (s.config.writePortBound = true → exec (.out port) s =
      .next { s with portEvents := s.portEvents ++ [.write port s.regs.a], cycles := 10 }) ∧
    (s.config.writePortBound = false → exec (.out port) s = .fault .missingPortHandler)

/-- NOP changes nothing but the cycle count, 4; DI clears INTE, 4 cycles, and keeps a pending request (R240, R249). -/
def Obligations.NopAndDi : Prop :=
  ∀ s : State, exec .nop s = .next { s with cycles := 4 } ∧ exec .di s = .next { s with inte := false, cycles := 4 }

/-- EI sets INTE at once: the very next Step dispatches a pending request (R248; that there is no delay is D19, log 22). -/
def Obligations.EiTakesEffectAtOnce : Prop :=
  ∀ s : State, exec .ei s = .next { s with inte := true, cycles := 4 } ∧
    ∀ (v : Byte) (t : State), s.pending = some v → exec .ei s = .next t →
      step t = exec (decodeInstr v s.z s.w) { t with pending := none }

/-- HLT and the twelve undefined bytes raise `UnimplementedOpcode` in every state (R241, R242; HLT's choice is D23, C2, log
21). -/
def Obligations.HltAndUndefinedBytesFault : Prop :=
  ∀ s : State, exec .hlt s = .fault .unimplementedOpcode ∧
    ∀ u : UndefinedByte, exec (.undefined u) s = .fault .unimplementedOpcode
end

