-- ==== Sys2Proof/Laws/Memory.lean ====
section
/-! SUPPORT. The laws of the memory list: a read after a write, and that every write keeps the canonical form. -/

namespace Sys2Proof.Machine.Memory

/-- An address below every listed one reads as unlisted. -/
theorem read_of_lt_all {m : Memory} {a : Nat} (h : ∀ x ∈ m, a < x.1) : read m a = unlisted := by
  cases m with
  | nil => rfl
  | cons x rest => simp [read, h x (by simp)]

theorem read_consCell {a : Nat} {v : Byte} {rest : Memory} (h : ∀ x ∈ rest, a < x.1) (b : Nat) :
    read (consCell a v rest) b = if b = a then v else read rest b := by
  unfold consCell
  split
  · rename_i hv
    split
    · rename_i hb
      rw [hb, read_of_lt_all h, hv]
    · rfl
  · simp only [read]
    split
    · rename_i hlt
      rw [if_neg (by omega), read_of_lt_all (fun x hx => by have := h x hx; omega)]
    · rfl

/-- A write changes the byte it writes and no other (R42). The list must rise, which `wf` says. -/
theorem read_write {m : Memory} (hm : m.Pairwise (fun x y => x.1 < y.1)) (a : Nat) (v : Byte) (b : Nat) :
    read (write m a v) b = if b = a then v else read m b := by
  induction m with
  | nil => simpa [write] using read_consCell (a := a) (v := v) (rest := []) (by simp) b
  | cons x rest ih =>
    obtain ⟨k, x⟩ := x
    obtain ⟨hk, hrest⟩ := List.pairwise_cons.mp hm
    simp only [write]
    split
    · rename_i hlt
      refine read_consCell ?_ b
      intro y hy
      rcases List.mem_cons.mp hy with rfl | hy
      · exact hlt
      · have := hk y hy
        simp at this
        omega
    · split
      · rename_i heq
        subst heq
        rw [read_consCell (fun y hy => hk y hy)]
        split
        · rfl
        · rename_i hne
          simp only [read]
          split
          · exact read_of_lt_all (fun y hy => by have := hk y hy; simp at this; omega)
          · rfl
      · simp only [read, ih hrest]
        split
        · rename_i hlt
          rw [if_neg (by omega)]
        · split
          · rename_i h1 h2 h3 h4
            rw [if_neg (by omega)]
          · rfl

/-- What a write lists: an entry it had, or the one written. -/
theorem mem_write {m : Memory} {a : Nat} {v : Byte} {x : Host.Cell} (h : x ∈ write m a v) :
    x ∈ m ∨ (x = (a, v) ∧ v ≠ unlisted) := by
  induction m with
  | nil =>
    simp only [write, consCell] at h
    split at h
    · simp at h
    · simp at h
      exact .inr ⟨h, by assumption⟩
  | cons y rest ih =>
    obtain ⟨k, y⟩ := y
    simp only [write, consCell] at h
    split at h
    · split at h
      · exact .inl h
      · rcases List.mem_cons.mp h with h | h
        · exact .inr ⟨h, by assumption⟩
        · exact .inl h
    · split at h
      · split at h
        · exact .inl (List.mem_cons_of_mem _ h)
        · rcases List.mem_cons.mp h with h | h
          · exact .inr ⟨h, by assumption⟩
          · exact .inl (List.mem_cons_of_mem _ h)
      · rcases List.mem_cons.mp h with h | h
        · exact .inl (h ▸ List.mem_cons_self)
        · rcases ih h with h | h
          · exact .inl (List.mem_cons_of_mem _ h)
          · exact .inr h

theorem pairwise_consCell {a : Nat} {v : Byte} {rest : Memory} (h : ∀ x ∈ rest, a < x.1)
    (hr : rest.Pairwise (fun x y => x.1 < y.1)) : (consCell a v rest).Pairwise (fun x y => x.1 < y.1) := by
  unfold consCell
  split
  · exact hr
  · exact List.pairwise_cons.mpr ⟨h, hr⟩

theorem pairwise_write {m : Memory} (hm : m.Pairwise (fun x y => x.1 < y.1)) (a : Nat) (v : Byte) :
    (write m a v).Pairwise (fun x y => x.1 < y.1) := by
  induction m with
  | nil => exact pairwise_consCell (by simp) List.Pairwise.nil
  | cons x rest ih =>
    obtain ⟨k, x⟩ := x
    obtain ⟨hk, hrest⟩ := List.pairwise_cons.mp hm
    simp only [write]
    split
    · rename_i hlt
      refine pairwise_consCell ?_ hm
      intro y hy
      rcases List.mem_cons.mp hy with rfl | hy
      · exact hlt
      · have := hk y hy
        simp at this
        omega
    · split
      · rename_i heq
        subst heq
        exact pairwise_consCell (fun y hy => hk y hy) hrest
      · refine List.pairwise_cons.mpr ⟨?_, ih hrest⟩
        intro y hy
        rcases mem_write hy with hy | ⟨rfl, -⟩
        · exact hk y hy
        · simp
          omega

/-- A write keeps the canonical form. -/
theorem write_wf {m : Memory} (hm : m.wf) (a : Nat) (v : Byte) : (write m a v).wf := by
  refine ⟨pairwise_write hm.1 a v, fun x hx => ?_⟩
  rcases mem_write hx with hx | ⟨rfl, hv⟩
  · exact hm.2 x hx
  · exact hv

/-- Writing many bytes keeps the canonical form. -/
theorem writeAll_wf {m : Memory} (hm : m.wf) (start : Nat) (bytes : List Byte) : (writeAll m start bytes).wf := by
  induction bytes generalizing m start with
  | nil => exact hm
  | cons v rest ih => exact ih (write_wf hm start v) (start + 1)

/-- What a write of many bytes lists. -/
theorem mem_writeAll {m : Memory} {start : Nat} {bytes : List Byte} {x : Host.Cell} (h : x ∈ writeAll m start bytes) :
    x ∈ m ∨ (start ≤ x.1 ∧ x.1 < start + bytes.length) := by
  induction bytes generalizing m start with
  | nil => exact .inl h
  | cons v rest ih =>
    rcases ih h with h | ⟨h1, h2⟩
    · rcases mem_write h with h | ⟨rfl, -⟩
      · exact .inl h
      · exact .inr (by simp)
    · exact .inr ⟨by omega, by simp; omega⟩

/-- Reading after writing many bytes (R292). -/
theorem read_writeAll {m : Memory} (hm : m.wf) (start : Nat) (bytes : List Byte) (b : Nat) :
    read (writeAll m start bytes) b =
      if h : start ≤ b ∧ b < start + bytes.length then bytes[b - start]'(by omega) else read m b := by
  induction bytes generalizing m start with
  | nil => rw [dif_neg (by simp)]; rfl
  | cons v rest ih =>
    simp only [writeAll]
    rw [ih (write_wf hm start v), read_write hm.1]
    by_cases hb : b = start
    · subst hb
      simp
    · by_cases h : start + 1 ≤ b ∧ b < start + 1 + rest.length
      · rw [dif_pos h, dif_pos (by simp; omega)]
        have : b - start = (b - (start + 1)) + 1 := by omega
        simp [this]
      · rw [dif_neg h, dif_neg (by simp; omega), if_neg hb]

/-- The reset memory is in canonical form. -/
theorem nil_wf : Memory.wf [] := ⟨List.Pairwise.nil, by simp⟩

end Sys2Proof.Machine.Memory
end

