-- ==== Sys2Proof/Laws/State.lean ====
section
/-! SUPPORT. What each named update of State does to each field: one lemma per field per update. Later proofs cite these
(by simp) and never unfold an update. -/

namespace Sys2Proof.Machine.State

variable (s : State)

/-! #### setLatches -/

@[simp] theorem setLatches_regs (z : Byte) (w : Byte) : (s.setLatches z w).regs = s.regs := rfl
@[simp] theorem setLatches_w (z : Byte) (w : Byte) : (s.setLatches z w).w = w := rfl
@[simp] theorem setLatches_z (z : Byte) (w : Byte) : (s.setLatches z w).z = z := rfl
@[simp] theorem setLatches_pc (z : Byte) (w : Byte) : (s.setLatches z w).pc = s.pc := rfl
@[simp] theorem setLatches_sp (z : Byte) (w : Byte) : (s.setLatches z w).sp = s.sp := rfl
@[simp] theorem setLatches_flags (z : Byte) (w : Byte) : (s.setLatches z w).flags = s.flags := rfl
@[simp] theorem setLatches_inte (z : Byte) (w : Byte) : (s.setLatches z w).inte = s.inte := rfl
@[simp] theorem setLatches_pending (z : Byte) (w : Byte) : (s.setLatches z w).pending = s.pending := rfl
@[simp] theorem setLatches_mem (z : Byte) (w : Byte) : (s.setLatches z w).mem = s.mem := rfl
@[simp] theorem setLatches_config (z : Byte) (w : Byte) : (s.setLatches z w).config = s.config := rfl
@[simp] theorem setLatches_portAnswers (z : Byte) (w : Byte) : (s.setLatches z w).portAnswers = s.portAnswers := rfl
@[simp] theorem setLatches_portEvents (z : Byte) (w : Byte) : (s.setLatches z w).portEvents = s.portEvents := rfl
@[simp] theorem setLatches_cycles (z : Byte) (w : Byte) : (s.setLatches z w).cycles = s.cycles := rfl

/-! #### setWz -/

@[simp] theorem setWz_regs (v : Word) : (s.setWz v).regs = s.regs := rfl
@[simp] theorem setWz_w (v : Word) : (s.setWz v).w = hiByte v := rfl
@[simp] theorem setWz_z (v : Word) : (s.setWz v).z = loByte v := rfl
@[simp] theorem setWz_pc (v : Word) : (s.setWz v).pc = s.pc := rfl
@[simp] theorem setWz_sp (v : Word) : (s.setWz v).sp = s.sp := rfl
@[simp] theorem setWz_flags (v : Word) : (s.setWz v).flags = s.flags := rfl
@[simp] theorem setWz_inte (v : Word) : (s.setWz v).inte = s.inte := rfl
@[simp] theorem setWz_pending (v : Word) : (s.setWz v).pending = s.pending := rfl
@[simp] theorem setWz_mem (v : Word) : (s.setWz v).mem = s.mem := rfl
@[simp] theorem setWz_config (v : Word) : (s.setWz v).config = s.config := rfl
@[simp] theorem setWz_portAnswers (v : Word) : (s.setWz v).portAnswers = s.portAnswers := rfl
@[simp] theorem setWz_portEvents (v : Word) : (s.setWz v).portEvents = s.portEvents := rfl
@[simp] theorem setWz_cycles (v : Word) : (s.setWz v).cycles = s.cycles := rfl

/-! #### setPc -/

@[simp] theorem setPc_regs (v : Word) : (s.setPc v).regs = s.regs := rfl
@[simp] theorem setPc_w (v : Word) : (s.setPc v).w = s.w := rfl
@[simp] theorem setPc_z (v : Word) : (s.setPc v).z = s.z := rfl
@[simp] theorem setPc_pc (v : Word) : (s.setPc v).pc = v := rfl
@[simp] theorem setPc_sp (v : Word) : (s.setPc v).sp = s.sp := rfl
@[simp] theorem setPc_flags (v : Word) : (s.setPc v).flags = s.flags := rfl
@[simp] theorem setPc_inte (v : Word) : (s.setPc v).inte = s.inte := rfl
@[simp] theorem setPc_pending (v : Word) : (s.setPc v).pending = s.pending := rfl
@[simp] theorem setPc_mem (v : Word) : (s.setPc v).mem = s.mem := rfl
@[simp] theorem setPc_config (v : Word) : (s.setPc v).config = s.config := rfl
@[simp] theorem setPc_portAnswers (v : Word) : (s.setPc v).portAnswers = s.portAnswers := rfl
@[simp] theorem setPc_portEvents (v : Word) : (s.setPc v).portEvents = s.portEvents := rfl
@[simp] theorem setPc_cycles (v : Word) : (s.setPc v).cycles = s.cycles := rfl

/-! #### setSp -/

@[simp] theorem setSp_regs (v : Word) : (s.setSp v).regs = s.regs := rfl
@[simp] theorem setSp_w (v : Word) : (s.setSp v).w = s.w := rfl
@[simp] theorem setSp_z (v : Word) : (s.setSp v).z = s.z := rfl
@[simp] theorem setSp_pc (v : Word) : (s.setSp v).pc = s.pc := rfl
@[simp] theorem setSp_sp (v : Word) : (s.setSp v).sp = v := rfl
@[simp] theorem setSp_flags (v : Word) : (s.setSp v).flags = s.flags := rfl
@[simp] theorem setSp_inte (v : Word) : (s.setSp v).inte = s.inte := rfl
@[simp] theorem setSp_pending (v : Word) : (s.setSp v).pending = s.pending := rfl
@[simp] theorem setSp_mem (v : Word) : (s.setSp v).mem = s.mem := rfl
@[simp] theorem setSp_config (v : Word) : (s.setSp v).config = s.config := rfl
@[simp] theorem setSp_portAnswers (v : Word) : (s.setSp v).portAnswers = s.portAnswers := rfl
@[simp] theorem setSp_portEvents (v : Word) : (s.setSp v).portEvents = s.portEvents := rfl
@[simp] theorem setSp_cycles (v : Word) : (s.setSp v).cycles = s.cycles := rfl

/-! #### setFlags -/

@[simp] theorem setFlags_regs (f : Flags) : (s.setFlags f).regs = s.regs := rfl
@[simp] theorem setFlags_w (f : Flags) : (s.setFlags f).w = s.w := rfl
@[simp] theorem setFlags_z (f : Flags) : (s.setFlags f).z = s.z := rfl
@[simp] theorem setFlags_pc (f : Flags) : (s.setFlags f).pc = s.pc := rfl
@[simp] theorem setFlags_sp (f : Flags) : (s.setFlags f).sp = s.sp := rfl
@[simp] theorem setFlags_flags (f : Flags) : (s.setFlags f).flags = f := rfl
@[simp] theorem setFlags_inte (f : Flags) : (s.setFlags f).inte = s.inte := rfl
@[simp] theorem setFlags_pending (f : Flags) : (s.setFlags f).pending = s.pending := rfl
@[simp] theorem setFlags_mem (f : Flags) : (s.setFlags f).mem = s.mem := rfl
@[simp] theorem setFlags_config (f : Flags) : (s.setFlags f).config = s.config := rfl
@[simp] theorem setFlags_portAnswers (f : Flags) : (s.setFlags f).portAnswers = s.portAnswers := rfl
@[simp] theorem setFlags_portEvents (f : Flags) : (s.setFlags f).portEvents = s.portEvents := rfl
@[simp] theorem setFlags_cycles (f : Flags) : (s.setFlags f).cycles = s.cycles := rfl

/-! #### setInte -/

@[simp] theorem setInte_regs (b : Bool) : (s.setInte b).regs = s.regs := rfl
@[simp] theorem setInte_w (b : Bool) : (s.setInte b).w = s.w := rfl
@[simp] theorem setInte_z (b : Bool) : (s.setInte b).z = s.z := rfl
@[simp] theorem setInte_pc (b : Bool) : (s.setInte b).pc = s.pc := rfl
@[simp] theorem setInte_sp (b : Bool) : (s.setInte b).sp = s.sp := rfl
@[simp] theorem setInte_flags (b : Bool) : (s.setInte b).flags = s.flags := rfl
@[simp] theorem setInte_inte (b : Bool) : (s.setInte b).inte = b := rfl
@[simp] theorem setInte_pending (b : Bool) : (s.setInte b).pending = s.pending := rfl
@[simp] theorem setInte_mem (b : Bool) : (s.setInte b).mem = s.mem := rfl
@[simp] theorem setInte_config (b : Bool) : (s.setInte b).config = s.config := rfl
@[simp] theorem setInte_portAnswers (b : Bool) : (s.setInte b).portAnswers = s.portAnswers := rfl
@[simp] theorem setInte_portEvents (b : Bool) : (s.setInte b).portEvents = s.portEvents := rfl
@[simp] theorem setInte_cycles (b : Bool) : (s.setInte b).cycles = s.cycles := rfl

/-! #### setPending -/

@[simp] theorem setPending_regs (p : Option Byte) : (s.setPending p).regs = s.regs := rfl
@[simp] theorem setPending_w (p : Option Byte) : (s.setPending p).w = s.w := rfl
@[simp] theorem setPending_z (p : Option Byte) : (s.setPending p).z = s.z := rfl
@[simp] theorem setPending_pc (p : Option Byte) : (s.setPending p).pc = s.pc := rfl
@[simp] theorem setPending_sp (p : Option Byte) : (s.setPending p).sp = s.sp := rfl
@[simp] theorem setPending_flags (p : Option Byte) : (s.setPending p).flags = s.flags := rfl
@[simp] theorem setPending_inte (p : Option Byte) : (s.setPending p).inte = s.inte := rfl
@[simp] theorem setPending_pending (p : Option Byte) : (s.setPending p).pending = p := rfl
@[simp] theorem setPending_mem (p : Option Byte) : (s.setPending p).mem = s.mem := rfl
@[simp] theorem setPending_config (p : Option Byte) : (s.setPending p).config = s.config := rfl
@[simp] theorem setPending_portAnswers (p : Option Byte) : (s.setPending p).portAnswers = s.portAnswers := rfl
@[simp] theorem setPending_portEvents (p : Option Byte) : (s.setPending p).portEvents = s.portEvents := rfl
@[simp] theorem setPending_cycles (p : Option Byte) : (s.setPending p).cycles = s.cycles := rfl

/-! #### setMem -/

@[simp] theorem setMem_regs (m : Memory) : (s.setMem m).regs = s.regs := rfl
@[simp] theorem setMem_w (m : Memory) : (s.setMem m).w = s.w := rfl
@[simp] theorem setMem_z (m : Memory) : (s.setMem m).z = s.z := rfl
@[simp] theorem setMem_pc (m : Memory) : (s.setMem m).pc = s.pc := rfl
@[simp] theorem setMem_sp (m : Memory) : (s.setMem m).sp = s.sp := rfl
@[simp] theorem setMem_flags (m : Memory) : (s.setMem m).flags = s.flags := rfl
@[simp] theorem setMem_inte (m : Memory) : (s.setMem m).inte = s.inte := rfl
@[simp] theorem setMem_pending (m : Memory) : (s.setMem m).pending = s.pending := rfl
@[simp] theorem setMem_mem (m : Memory) : (s.setMem m).mem = m := rfl
@[simp] theorem setMem_config (m : Memory) : (s.setMem m).config = s.config := rfl
@[simp] theorem setMem_portAnswers (m : Memory) : (s.setMem m).portAnswers = s.portAnswers := rfl
@[simp] theorem setMem_portEvents (m : Memory) : (s.setMem m).portEvents = s.portEvents := rfl
@[simp] theorem setMem_cycles (m : Memory) : (s.setMem m).cycles = s.cycles := rfl

/-! #### setCycles -/

@[simp] theorem setCycles_regs (n : Nat) : (s.setCycles n).regs = s.regs := rfl
@[simp] theorem setCycles_w (n : Nat) : (s.setCycles n).w = s.w := rfl
@[simp] theorem setCycles_z (n : Nat) : (s.setCycles n).z = s.z := rfl
@[simp] theorem setCycles_pc (n : Nat) : (s.setCycles n).pc = s.pc := rfl
@[simp] theorem setCycles_sp (n : Nat) : (s.setCycles n).sp = s.sp := rfl
@[simp] theorem setCycles_flags (n : Nat) : (s.setCycles n).flags = s.flags := rfl
@[simp] theorem setCycles_inte (n : Nat) : (s.setCycles n).inte = s.inte := rfl
@[simp] theorem setCycles_pending (n : Nat) : (s.setCycles n).pending = s.pending := rfl
@[simp] theorem setCycles_mem (n : Nat) : (s.setCycles n).mem = s.mem := rfl
@[simp] theorem setCycles_config (n : Nat) : (s.setCycles n).config = s.config := rfl
@[simp] theorem setCycles_portAnswers (n : Nat) : (s.setCycles n).portAnswers = s.portAnswers := rfl
@[simp] theorem setCycles_portEvents (n : Nat) : (s.setCycles n).portEvents = s.portEvents := rfl
@[simp] theorem setCycles_cycles (n : Nat) : (s.setCycles n).cycles = n := rfl

/-! #### setReg -/

@[simp] theorem setReg_w (r : Reg) (v : Byte) : (s.setReg r v).w = s.w := by cases r <;> rfl
@[simp] theorem setReg_z (r : Reg) (v : Byte) : (s.setReg r v).z = s.z := by cases r <;> rfl
@[simp] theorem setReg_pc (r : Reg) (v : Byte) : (s.setReg r v).pc = s.pc := by cases r <;> rfl
@[simp] theorem setReg_sp (r : Reg) (v : Byte) : (s.setReg r v).sp = s.sp := by cases r <;> rfl
@[simp] theorem setReg_flags (r : Reg) (v : Byte) : (s.setReg r v).flags = s.flags := by cases r <;> rfl
@[simp] theorem setReg_inte (r : Reg) (v : Byte) : (s.setReg r v).inte = s.inte := by cases r <;> rfl
@[simp] theorem setReg_pending (r : Reg) (v : Byte) : (s.setReg r v).pending = s.pending := by cases r <;> rfl
@[simp] theorem setReg_mem (r : Reg) (v : Byte) : (s.setReg r v).mem = s.mem := by cases r <;> rfl
@[simp] theorem setReg_config (r : Reg) (v : Byte) : (s.setReg r v).config = s.config := by cases r <;> rfl
@[simp] theorem setReg_portAnswers (r : Reg) (v : Byte) : (s.setReg r v).portAnswers = s.portAnswers := by cases r <;> rfl
@[simp] theorem setReg_portEvents (r : Reg) (v : Byte) : (s.setReg r v).portEvents = s.portEvents := by cases r <;> rfl
@[simp] theorem setReg_cycles (r : Reg) (v : Byte) : (s.setReg r v).cycles = s.cycles := by cases r <;> rfl

/-! #### setPair -/

@[simp] theorem setPair_w (p : Pair) (v : Word) : (s.setPair p v).w = s.w := by cases p <;> rfl
@[simp] theorem setPair_z (p : Pair) (v : Word) : (s.setPair p v).z = s.z := by cases p <;> rfl
@[simp] theorem setPair_pc (p : Pair) (v : Word) : (s.setPair p v).pc = s.pc := by cases p <;> rfl
@[simp] theorem setPair_sp (p : Pair) (v : Word) : (s.setPair p v).sp = s.sp := by cases p <;> rfl
@[simp] theorem setPair_flags (p : Pair) (v : Word) : (s.setPair p v).flags = s.flags := by cases p <;> rfl
@[simp] theorem setPair_inte (p : Pair) (v : Word) : (s.setPair p v).inte = s.inte := by cases p <;> rfl
@[simp] theorem setPair_pending (p : Pair) (v : Word) : (s.setPair p v).pending = s.pending := by cases p <;> rfl
@[simp] theorem setPair_mem (p : Pair) (v : Word) : (s.setPair p v).mem = s.mem := by cases p <;> rfl
@[simp] theorem setPair_config (p : Pair) (v : Word) : (s.setPair p v).config = s.config := by cases p <;> rfl
@[simp] theorem setPair_portAnswers (p : Pair) (v : Word) : (s.setPair p v).portAnswers = s.portAnswers := by cases p <;> rfl
@[simp] theorem setPair_portEvents (p : Pair) (v : Word) : (s.setPair p v).portEvents = s.portEvents := by cases p <;> rfl
@[simp] theorem setPair_cycles (p : Pair) (v : Word) : (s.setPair p v).cycles = s.cycles := by cases p <;> rfl

/-! #### setWide -/

@[simp] theorem setWide_w (x : Wide) (v : Word) : (s.setWide x v).w = s.w := by rcases x with p | _ <;> first | rfl | (cases p <;> rfl)
@[simp] theorem setWide_z (x : Wide) (v : Word) : (s.setWide x v).z = s.z := by rcases x with p | _ <;> first | rfl | (cases p <;> rfl)
@[simp] theorem setWide_pc (x : Wide) (v : Word) : (s.setWide x v).pc = s.pc := by rcases x with p | _ <;> first | rfl | (cases p <;> rfl)
@[simp] theorem setWide_flags (x : Wide) (v : Word) : (s.setWide x v).flags = s.flags := by rcases x with p | _ <;> first | rfl | (cases p <;> rfl)
@[simp] theorem setWide_inte (x : Wide) (v : Word) : (s.setWide x v).inte = s.inte := by rcases x with p | _ <;> first | rfl | (cases p <;> rfl)
@[simp] theorem setWide_pending (x : Wide) (v : Word) : (s.setWide x v).pending = s.pending := by rcases x with p | _ <;> first | rfl | (cases p <;> rfl)
@[simp] theorem setWide_mem (x : Wide) (v : Word) : (s.setWide x v).mem = s.mem := by rcases x with p | _ <;> first | rfl | (cases p <;> rfl)
@[simp] theorem setWide_config (x : Wide) (v : Word) : (s.setWide x v).config = s.config := by rcases x with p | _ <;> first | rfl | (cases p <;> rfl)
@[simp] theorem setWide_portAnswers (x : Wide) (v : Word) : (s.setWide x v).portAnswers = s.portAnswers := by rcases x with p | _ <;> first | rfl | (cases p <;> rfl)
@[simp] theorem setWide_portEvents (x : Wide) (v : Word) : (s.setWide x v).portEvents = s.portEvents := by rcases x with p | _ <;> first | rfl | (cases p <;> rfl)
@[simp] theorem setWide_cycles (x : Wide) (v : Word) : (s.setWide x v).cycles = s.cycles := by rcases x with p | _ <;> first | rfl | (cases p <;> rfl)

/-! #### setStackReg -/

@[simp] theorem setStackReg_w (x : StackReg) (v : Word) : (s.setStackReg x v).w = s.w := by rcases x with p | _ <;> first | rfl | (cases p <;> rfl)
@[simp] theorem setStackReg_z (x : StackReg) (v : Word) : (s.setStackReg x v).z = s.z := by rcases x with p | _ <;> first | rfl | (cases p <;> rfl)
@[simp] theorem setStackReg_pc (x : StackReg) (v : Word) : (s.setStackReg x v).pc = s.pc := by rcases x with p | _ <;> first | rfl | (cases p <;> rfl)
@[simp] theorem setStackReg_sp (x : StackReg) (v : Word) : (s.setStackReg x v).sp = s.sp := by rcases x with p | _ <;> first | rfl | (cases p <;> rfl)
@[simp] theorem setStackReg_inte (x : StackReg) (v : Word) : (s.setStackReg x v).inte = s.inte := by rcases x with p | _ <;> first | rfl | (cases p <;> rfl)
@[simp] theorem setStackReg_pending (x : StackReg) (v : Word) : (s.setStackReg x v).pending = s.pending := by rcases x with p | _ <;> first | rfl | (cases p <;> rfl)
@[simp] theorem setStackReg_mem (x : StackReg) (v : Word) : (s.setStackReg x v).mem = s.mem := by rcases x with p | _ <;> first | rfl | (cases p <;> rfl)
@[simp] theorem setStackReg_config (x : StackReg) (v : Word) : (s.setStackReg x v).config = s.config := by rcases x with p | _ <;> first | rfl | (cases p <;> rfl)
@[simp] theorem setStackReg_portAnswers (x : StackReg) (v : Word) : (s.setStackReg x v).portAnswers = s.portAnswers := by rcases x with p | _ <;> first | rfl | (cases p <;> rfl)
@[simp] theorem setStackReg_portEvents (x : StackReg) (v : Word) : (s.setStackReg x v).portEvents = s.portEvents := by rcases x with p | _ <;> first | rfl | (cases p <;> rfl)
@[simp] theorem setStackReg_cycles (x : StackReg) (v : Word) : (s.setStackReg x v).cycles = s.cycles := by rcases x with p | _ <;> first | rfl | (cases p <;> rfl)

/-! #### setAccumulator -/

@[simp] theorem setAccumulator_regs (r : Byte × Flags) : (s.setAccumulator r).regs = { s.regs with a := r.1 } := rfl
@[simp] theorem setAccumulator_w (r : Byte × Flags) : (s.setAccumulator r).w = s.w := rfl
@[simp] theorem setAccumulator_z (r : Byte × Flags) : (s.setAccumulator r).z = s.z := rfl
@[simp] theorem setAccumulator_pc (r : Byte × Flags) : (s.setAccumulator r).pc = s.pc := rfl
@[simp] theorem setAccumulator_sp (r : Byte × Flags) : (s.setAccumulator r).sp = s.sp := rfl
@[simp] theorem setAccumulator_flags (r : Byte × Flags) : (s.setAccumulator r).flags = r.2 := rfl
@[simp] theorem setAccumulator_inte (r : Byte × Flags) : (s.setAccumulator r).inte = s.inte := rfl
@[simp] theorem setAccumulator_pending (r : Byte × Flags) : (s.setAccumulator r).pending = s.pending := rfl
@[simp] theorem setAccumulator_mem (r : Byte × Flags) : (s.setAccumulator r).mem = s.mem := rfl
@[simp] theorem setAccumulator_config (r : Byte × Flags) : (s.setAccumulator r).config = s.config := rfl
@[simp] theorem setAccumulator_portAnswers (r : Byte × Flags) : (s.setAccumulator r).portAnswers = s.portAnswers := rfl
@[simp] theorem setAccumulator_portEvents (r : Byte × Flags) : (s.setAccumulator r).portEvents = s.portEvents := rfl
@[simp] theorem setAccumulator_cycles (r : Byte × Flags) : (s.setAccumulator r).cycles = s.cycles := rfl

/-! #### Register reads after register writes -/

theorem getReg_setReg (r q : Reg) (v : Byte) : (s.setReg r v).getReg q = if q = r then v else s.getReg q := by
  cases r <;> cases q <;> rfl

@[simp] theorem getReg_setReg_same (r : Reg) (v : Byte) : (s.setReg r v).getReg r = v := by cases r <;> rfl

theorem getReg_setPair (p : Pair) (q : Reg) (v : Word) :
    (s.setPair p v).getReg q = if q = pairHigh p then hiByte v else if q = pairLow p then loByte v else s.getReg q := by
  cases p <;> cases q <;> rfl

/-! #### The operations that look at the state see only the fields they name -/

@[simp] theorem inBounds_setMem (m : Memory) (a : Word) : (s.setMem m).inBounds a = s.inBounds a := rfl

@[simp] theorem inBounds_setLatches (z w : Byte) (a : Word) : (s.setLatches z w).inBounds a = s.inBounds a := rfl

@[simp] theorem inBounds_setPending (p : Option Byte) (a : Word) : (s.setPending p).inBounds a = s.inBounds a := rfl

@[simp] theorem setMem_setMem (m n : Memory) : (s.setMem m).setMem n = s.setMem n := rfl

@[simp] theorem setMem_self : s.setMem s.mem = s := rfl

end Sys2Proof.Machine.State
end

