-- ==== Sys2Proof/Laws/Ops.lean ====
section
/-! SUPPORT. One lemma per shared operation, which says everything it can do: when it answers `ok`, and what. Later proofs
cite these instead of unfolding the operations. -/

namespace Sys2Proof.Machine

namespace State

variable {s t : State} {a v16 : Word} {v : Byte} {f : Fault}

/-! ### Memory access -/

theorem inBounds_iff : s.inBounds a = true ↔ a.toNat < s.config.memCapacity := by simp [inBounds]

theorem readByte_ok : s.readByte a = .ok v ↔ s.inBounds a ∧ v = s.byteAt a := by
  unfold readByte
  split <;> constructor <;> intro h <;> simp_all

theorem readByte_error : s.readByte a = .error f ↔ s.inBounds a = false ∧ f = .outOfBoundsAccess := by
  unfold readByte
  split <;> constructor <;> intro h <;> simp_all

theorem writeByte_ok :
    s.writeByte a v = .ok t ↔ s.inBounds a ∧ t = s.setMem (Memory.write s.mem a.toNat v) := by
  unfold writeByte
  split <;> constructor <;> intro h <;> simp_all

theorem writeByte_error : s.writeByte a v = .error f ↔ s.inBounds a = false ∧ f = .outOfBoundsAccess := by
  unfold writeByte
  split <;> constructor <;> intro h <;> simp_all

theorem readWord_eq (s : State) (a : Word) :
    s.readWord a = if s.inBounds a ∧ s.inBounds (a + 1) then .ok (joinBytes (s.byteAt (a + 1)) (s.byteAt a))
      else .error .outOfBoundsAccess := by
  unfold readWord readByte
  cases s.inBounds a <;> cases s.inBounds (a + 1) <;> rfl

theorem readWord_ok : s.readWord a = .ok v16 ↔
    s.inBounds a ∧ s.inBounds (a + 1) ∧ v16 = joinBytes (s.byteAt (a + 1)) (s.byteAt a) := by
  rw [readWord_eq]
  split <;> constructor <;> intro h <;> simp_all

theorem writeWord_eq (s : State) (a v16 : Word) :
    s.writeWord a v16 = if s.inBounds a ∧ s.inBounds (a + 1) then
        .ok (s.setMem (Memory.write (Memory.write s.mem a.toNat (loByte v16)) (a + 1).toNat (hiByte v16)))
      else .error .outOfBoundsAccess := by
  unfold writeWord writeByte
  cases h1 : s.inBounds a <;> cases h2 : s.inBounds (a + 1) <;> simp_all [bind, Except.bind]

theorem writeWord_ok : s.writeWord a v16 = .ok t ↔ s.inBounds a ∧ s.inBounds (a + 1) ∧
    t = s.setMem (Memory.write (Memory.write s.mem a.toNat (loByte v16)) (a + 1).toNat (hiByte v16)) := by
  rw [writeWord_eq]
  split <;> constructor <;> intro h <;> simp_all

/-! ### The stack -/

/-- Memory after `push16 v` (R181). -/
def pushedMem (s : State) (v : Word) : Memory :=
  Memory.write (Memory.write s.mem (s.sp - 1).toNat (hiByte v)) (s.sp - 2).toNat (loByte v)

theorem push16_eq (s : State) (v16 : Word) :
    s.push16 v16 = if s.inBounds (s.sp - 1) ∧ s.inBounds (s.sp - 2) then
        .ok ((s.setMem (s.pushedMem v16)).setSp (s.sp - 2))
      else .error .outOfBoundsAccess := by
  unfold push16 writeByte pushedMem
  cases h1 : s.inBounds (s.sp - 1) <;> cases h2 : s.inBounds (s.sp - 2) <;> simp_all [bind, Except.bind, pure, Except.pure]

theorem pop16_eq (s : State) :
    s.pop16 = if s.inBounds s.sp ∧ s.inBounds (s.sp + 1) then
        .ok (joinBytes (s.byteAt (s.sp + 1)) (s.byteAt s.sp), s.setSp (s.sp + 2))
      else .error .outOfBoundsAccess := by
  unfold pop16
  rw [readWord_eq]
  split <;> rfl

theorem callTo_eq (s : State) (target : Word) :
    s.callTo target = if s.inBounds (s.sp - 1) ∧ s.inBounds (s.sp - 2) then
        .ok (((s.setMem (s.pushedMem s.pc)).setSp (s.sp - 2)).setPc target)
      else .error .outOfBoundsAccess := by
  unfold callTo
  rw [push16_eq]
  split <;> rfl

theorem returnFrom_eq (s : State) :
    s.returnFrom = if s.inBounds s.sp ∧ s.inBounds (s.sp + 1) then
        .ok ((s.setSp (s.sp + 2)).setPc (joinBytes (s.byteAt (s.sp + 1)) (s.byteAt s.sp)))
      else .error .outOfBoundsAccess := by
  unfold returnFrom
  rw [pop16_eq]
  split <;> rfl

/-! ### Operands -/

theorem readOperand_reg (r : Reg) : s.readOperand (.reg r) = .ok (s.getReg r) := rfl

theorem writeOperand_reg (r : Reg) : s.writeOperand (.reg r) v = .ok (s.setReg r v) := rfl

/-- A read or write of a register or M operand can only fault as an access out of bounds at HL (R260). -/
theorem readOperand_error {o : Operand} (h : s.readOperand o = .error f) :
    o = .m ∧ s.inBounds s.hl = false ∧ f = .outOfBoundsAccess := by
  cases o with
  | reg r => simp [readOperand] at h
  | m => exact ⟨rfl, readByte_error.mp h⟩

theorem writeOperand_ok {o : Operand} (h : s.writeOperand o v = .ok t) :
    (∃ r, o = .reg r ∧ t = s.setReg r v) ∨
      (o = .m ∧ s.inBounds s.hl ∧ t = s.setMem (Memory.write s.mem s.hl.toNat v)) := by
  cases o with
  | reg r => exact .inl ⟨r, rfl, by simpa [writeOperand, eq_comm] using h⟩
  | m => exact .inr ⟨rfl, writeByte_ok.mp h⟩

/-! ### Ports -/

theorem portRead_ok {port : Byte} {r : Byte × State} : s.portRead port = .ok r ↔
    s.config.readPortBound ∧ r = (s.portAnswer port,
      { s with
        portAnswers := s.portAnswers.tail
        portEvents := s.portEvents ++ [.read port (s.portAnswer port)] }) := by
  unfold portRead
  split <;> constructor <;> intro h <;> simp_all

theorem portWrite_ok {port : Byte} : s.portWrite port v = .ok t ↔
    s.config.writePortBound ∧ t = { s with portEvents := s.portEvents ++ [.write port v] } := by
  unfold portWrite
  split <;> constructor <;> intro h <;> simp_all

/-! ### Interrupt acceptance and fetch -/

theorem acceptInterrupt_some {r : Byte × State} : s.acceptInterrupt = some r ↔
    s.inte = true ∧ s.pending = some r.1 ∧ r.2 = s.setPending none := by
  obtain ⟨op, u⟩ := r
  unfold acceptInterrupt
  split <;> constructor <;> intro h <;> simp_all

theorem acceptInterrupt_none : s.acceptInterrupt = none ↔ s.inte = false ∨ s.pending = none := by
  unfold acceptInterrupt
  split <;> cases hi : s.inte <;> cases hp : s.pending <;> simp_all

/-- The latch Z after a fetch of opcode `op` (R67). -/
def fetchedZ (s : State) (op : Byte) : Byte := if opLength op ≥ 2 then s.byteAt (s.pc + 1) else s.z

/-- The latch W after a fetch of opcode `op` (R67). -/
def fetchedW (s : State) (op : Byte) : Byte := if opLength op = 3 then s.byteAt (s.pc + 2) else s.w

/-- The whole of the fetch (R67): it faults when a byte it reads is out of bounds, else it answers the opcode at PC and the
state with the latches loaded and PC advanced. -/
theorem fetch_eq (s : State) :
    s.fetch = if s.inBounds s.pc ∧ (opLength (s.byteAt s.pc) ≥ 2 → s.inBounds (s.pc + 1)) ∧
        (opLength (s.byteAt s.pc) = 3 → s.inBounds (s.pc + 2)) then
        .ok (s.byteAt s.pc,
          (s.setLatches (s.fetchedZ (s.byteAt s.pc)) (s.fetchedW (s.byteAt s.pc))).setPc
            (s.pc + BitVec.ofNat 16 (opLength (s.byteAt s.pc))))
      else .error .outOfBoundsAccess := by
  unfold fetch readByte fetchedZ fetchedW
  by_cases h0 : s.inBounds s.pc
  · by_cases h2 : opLength (s.byteAt s.pc) ≥ 2 <;> by_cases h3 : opLength (s.byteAt s.pc) = 3 <;>
      cases h1 : s.inBounds (s.pc + 1) <;> cases h4 : s.inBounds (s.pc + 2) <;>
      simp [h0, h2, h3, bind, Except.bind, pure, Except.pure]
  · simp [h0, bind, Except.bind]

theorem fetch_error (h : s.fetch = .error f) : f = .outOfBoundsAccess := by
  rw [fetch_eq] at h
  split at h
  · cases h
  · cases h; rfl

/-- Steps 1 and 2 of `Step()` only fault as a fetch out of bounds (R270). -/
theorem currentOpcode_error (h : s.currentOpcode = .error f) : f = .outOfBoundsAccess := by
  unfold currentOpcode at h
  split at h
  · cases h
  · exact fetch_error h

/-- Steps 1 and 2 of `Step()` (R264): the opcode is the accepted vector, or the byte at PC. -/
theorem currentOpcode_ok {op : Byte} (h : s.currentOpcode = .ok (op, t)) :
    (s.inte = true ∧ s.pending = some op ∧ t = s.setPending none) ∨
      ((s.inte = false ∨ s.pending = none) ∧ op = s.byteAt s.pc ∧
        t = (s.setLatches (s.fetchedZ op) (s.fetchedW op)).setPc (s.pc + BitVec.ofNat 16 (opLength op))) := by
  unfold currentOpcode at h
  split at h
  · rename_i r hr
    cases h
    exact .inl (acceptInterrupt_some.mp hr)
  · rename_i hr
    rw [fetch_eq] at h
    split at h
    · cases h
      exact .inr ⟨acceptInterrupt_none.mp hr, rfl, rfl⟩
    · cases h

end State

/-! ### The end of a Step -/

theorem retire_next {n : Nat} {r : Except Fault State} {t : State} :
    retire n r = .next t ↔ ∃ u, r = .ok u ∧ t = u.setCycles n := by
  cases r <;> simp only [retire] <;> constructor <;> intro h <;> simp_all

theorem retire_fault {n : Nat} {r : Except Fault State} {f : Fault} : retire n r = .fault f ↔ r = .error f := by
  cases r <;> simp [retire]

theorem retire_not_refused {n : Nat} {r : Except Fault State} {q : Refusal} : retire n r ≠ .refused q := by
  cases r <;> simp [retire]

end Sys2Proof.Machine
end

