-- ==== Sys2Proof/Laws/PerInstr.lean ====
section
/-! SUPPORT. Facts about every instruction as syntax, one lemma per constructor of `Instr`. -/

namespace Sys2Proof.Laws.EncodedLength

/-- An instruction is encoded in as many bytes as its opcode's length says (spec/30_encoding.md R60, R61, R76). -/
def Statement (i : Instr) : Prop := (encode i).length = opLength (opcodeOf i)

theorem mov (dst : Operand) (src : Operand) : Statement (.mov dst src) := by
  rcases dst with r | _ <;> rcases src with q | _ <;> first
    | rfl
    | (cases r <;> cases q <;> rfl)
    | (cases r <;> rfl)
    | (cases q <;> rfl)

theorem mvi (dst : Operand) (d8 : Byte) : Statement (.mvi dst d8) := by rcases dst with r | _ <;> first | rfl | (cases r <;> rfl)

theorem lxi (dst : Wide) (d16 : Word) : Statement (.lxi dst d16) := by rcases dst with p | _ <;> first | rfl | (cases p <;> rfl)

theorem stax (p : IndexPair) : Statement (.stax p) := by cases p <;> rfl

theorem ldax (p : IndexPair) : Statement (.ldax p) := by cases p <;> rfl

theorem shld (a16 : Word) : Statement (.shld a16) := by rfl

theorem lhld (a16 : Word) : Statement (.lhld a16) := by rfl

theorem sta (a16 : Word) : Statement (.sta a16) := by rfl

theorem lda (a16 : Word) : Statement (.lda a16) := by rfl

theorem add (src : Operand) : Statement (.add src) := by rcases src with r | _ <;> first | rfl | (cases r <;> rfl)

theorem adc (src : Operand) : Statement (.adc src) := by rcases src with r | _ <;> first | rfl | (cases r <;> rfl)

theorem sub (src : Operand) : Statement (.sub src) := by rcases src with r | _ <;> first | rfl | (cases r <;> rfl)

theorem sbb (src : Operand) : Statement (.sbb src) := by rcases src with r | _ <;> first | rfl | (cases r <;> rfl)

theorem adi (d8 : Byte) : Statement (.adi d8) := by rfl

theorem aci (d8 : Byte) : Statement (.aci d8) := by rfl

theorem sui (d8 : Byte) : Statement (.sui d8) := by rfl

theorem sbi (d8 : Byte) : Statement (.sbi d8) := by rfl

theorem inr (dst : Operand) : Statement (.inr dst) := by rcases dst with r | _ <;> first | rfl | (cases r <;> rfl)

theorem dcr (dst : Operand) : Statement (.dcr dst) := by rcases dst with r | _ <;> first | rfl | (cases r <;> rfl)

theorem inx (dst : Wide) : Statement (.inx dst) := by rcases dst with p | _ <;> first | rfl | (cases p <;> rfl)

theorem dcx (dst : Wide) : Statement (.dcx dst) := by rcases dst with p | _ <;> first | rfl | (cases p <;> rfl)

theorem dad (src : Wide) : Statement (.dad src) := by rcases src with p | _ <;> first | rfl | (cases p <;> rfl)

theorem daa : Statement .daa := by rfl

theorem ana (src : Operand) : Statement (.ana src) := by rcases src with r | _ <;> first | rfl | (cases r <;> rfl)

theorem xra (src : Operand) : Statement (.xra src) := by rcases src with r | _ <;> first | rfl | (cases r <;> rfl)

theorem ora (src : Operand) : Statement (.ora src) := by rcases src with r | _ <;> first | rfl | (cases r <;> rfl)

theorem cmp (src : Operand) : Statement (.cmp src) := by rcases src with r | _ <;> first | rfl | (cases r <;> rfl)

theorem ani (d8 : Byte) : Statement (.ani d8) := by rfl

theorem xri (d8 : Byte) : Statement (.xri d8) := by rfl

theorem ori (d8 : Byte) : Statement (.ori d8) := by rfl

theorem cpi (d8 : Byte) : Statement (.cpi d8) := by rfl

theorem cma : Statement .cma := by rfl

theorem stc : Statement .stc := by rfl

theorem cmc : Statement .cmc := by rfl

theorem rlc : Statement .rlc := by rfl

theorem rrc : Statement .rrc := by rfl

theorem ral : Statement .ral := by rfl

theorem rar : Statement .rar := by rfl

theorem jmp (a16 : Word) : Statement (.jmp a16) := by rfl

theorem jnz (a16 : Word) : Statement (.jnz a16) := by rfl

theorem jz (a16 : Word) : Statement (.jz a16) := by rfl

theorem jnc (a16 : Word) : Statement (.jnc a16) := by rfl

theorem jc (a16 : Word) : Statement (.jc a16) := by rfl

theorem jpo (a16 : Word) : Statement (.jpo a16) := by rfl

theorem jpe (a16 : Word) : Statement (.jpe a16) := by rfl

theorem jp (a16 : Word) : Statement (.jp a16) := by rfl

theorem jm (a16 : Word) : Statement (.jm a16) := by rfl

theorem call (a16 : Word) : Statement (.call a16) := by rfl

theorem cnz (a16 : Word) : Statement (.cnz a16) := by rfl

theorem cz (a16 : Word) : Statement (.cz a16) := by rfl

theorem cnc (a16 : Word) : Statement (.cnc a16) := by rfl

theorem cc (a16 : Word) : Statement (.cc a16) := by rfl

theorem cpo (a16 : Word) : Statement (.cpo a16) := by rfl

theorem cpe (a16 : Word) : Statement (.cpe a16) := by rfl

theorem cp (a16 : Word) : Statement (.cp a16) := by rfl

theorem cm (a16 : Word) : Statement (.cm a16) := by rfl

theorem ret : Statement .ret := by rfl

theorem rnz : Statement .rnz := by rfl

theorem rz : Statement .rz := by rfl

theorem rnc : Statement .rnc := by rfl

theorem rc : Statement .rc := by rfl

theorem rpo : Statement .rpo := by rfl

theorem rpe : Statement .rpe := by rfl

theorem rp : Statement .rp := by rfl

theorem rm : Statement .rm := by rfl

theorem pchl : Statement .pchl := by rfl

theorem rst (n : Fin 8) : Statement (.rst n) := by fin_cases n <;> rfl

theorem push (src : StackReg) : Statement (.push src) := by rcases src with p | _ <;> first | rfl | (cases p <;> rfl)

theorem pop (dst : StackReg) : Statement (.pop dst) := by rcases dst with p | _ <;> first | rfl | (cases p <;> rfl)

theorem xchg : Statement .xchg := by rfl

theorem xthl : Statement .xthl := by rfl

theorem sphl : Statement .sphl := by rfl

theorem inp (port : Byte) : Statement (.inp port) := by rfl

theorem out (port : Byte) : Statement (.out port) := by rfl

theorem ei : Statement .ei := by rfl

theorem di : Statement .di := by rfl

theorem nop : Statement .nop := by rfl

theorem hlt : Statement .hlt := by rfl

theorem undefined (u : UndefinedByte) : Statement (.undefined u) := by cases u <;> rfl

end Sys2Proof.Laws.EncodedLength
end

