-- ==== Sys2Proof/Tests/Slice0.lean ====
section
/-! SUPPORT. The model's own tests. First the smoke test of WellFormed; then, for every constructor, words written out from
the spec's encodings and what they decode to; then one Step each on small states, the expected results taken from
spec/95_test_vectors.md (the vector's number is in the name); last, for every obligation with hypotheses, a state and operands
that meet all of them together, at the boundary values of their ranges. -/

namespace Sys2Proof.Tests

open Sys2Proof.Machine Sys2Proof.Claims

/-! ### WellFormed -/

/-- The one ill-formed term of the syntax: the byte 01110110 is HLT, there is no `MOV M,M` (R69, R102). -/
theorem test_wellFormed_refuses_mov_m_m : Instr.wf (.mov .m .m) = false := by decide

theorem test_wellFormed_takes_mov_m_a : Instr.wf (.mov .m (.reg .a)) = true := by decide

/-! ### Decoding, by words written from the "Encoding" lines of the rules and the tables of R62 to R65 -/

/-- Every word of the list decodes to the instruction beside it, and nothing is left over. -/
abbrev decodesAll (rows : List (List Byte × Instr)) : Prop := ∀ r ∈ rows, (decode r.1).toOption = some (r.2, [])

/-- The register codes of R62, all eight. -/
theorem test_decode_register_codes : decodesAll [
    ([0b01000001], .mov (.reg .b) (.reg .c)), ([0b01001010], .mov (.reg .c) (.reg .d)),
    ([0b01010011], .mov (.reg .d) (.reg .e)), ([0b01011100], .mov (.reg .e) (.reg .h)),
    ([0b01100101], .mov (.reg .h) (.reg .l)), ([0b01101110], .mov (.reg .l) .m),
    ([0b01110111], .mov .m (.reg .a)), ([0b01111000], .mov (.reg .a) (.reg .b))] := by decide

/-- Data movement (R100 to R111). -/
theorem test_decode_data_movement : decodesAll [
    ([0b00111110, 0x42], .mvi (.reg .a) 0x42), ([0b00110110, 0xFF], .mvi .m 0xFF),
    ([0b00100001, 0x34, 0x12], .lxi (.pair .hl) 0x1234), ([0b00110001, 0x00, 0x24], .lxi .sp 0x2400),
    ([0b00000010], .stax .bc), ([0b00010010], .stax .de), ([0b00001010], .ldax .bc), ([0b00011010], .ldax .de),
    ([0b00100010, 0x0A, 0x01], .shld 0x010A), ([0b00101010, 0x5B, 0x02], .lhld 0x025B),
    ([0b00110010, 0x00, 0x20], .sta 0x2000), ([0b00111010, 0x00, 0x03], .lda 0x0300)] := by decide

/-- Arithmetic (R122 to R141). -/
theorem test_decode_arithmetic : decodesAll [
    ([0b10000000], .add (.reg .b)), ([0b10001110], .adc .m), ([0b10010111], .sub (.reg .a)), ([0b10011101], .sbb (.reg .l)),
    ([0b11000110, 0x42], .adi 0x42), ([0b11001110, 0xBE], .aci 0xBE), ([0b11010110, 0x01], .sui 0x01),
    ([0b11011110, 0x01], .sbi 0x01), ([0b00001100], .inr (.reg .c)), ([0b00110100], .inr .m),
    ([0b00000101], .dcr (.reg .b)), ([0b00110101], .dcr .m), ([0b00010011], .inx (.pair .de)), ([0b00110011], .inx .sp),
    ([0b00101011], .dcx (.pair .hl)), ([0b00001001], .dad (.pair .bc)), ([0b00111001], .dad .sp),
    ([0b00100111], .daa)] := by decide

/-- Logic, compare and rotates (R151 to R173). -/
theorem test_decode_logic_and_rotates : decodesAll [
    ([0b10100001], .ana (.reg .c)), ([0b10101110], .xra .m), ([0b10110001], .ora (.reg .c)), ([0b10111011], .cmp (.reg .e)),
    ([0b11100110, 0x0F], .ani 0x0F), ([0b11101110, 0x81], .xri 0x81), ([0b11110110, 0x0F], .ori 0x0F),
    ([0b11111110, 0x40], .cpi 0x40), ([0b00101111], .cma), ([0b00110111], .stc), ([0b00111111], .cmc),
    ([0b00000111], .rlc), ([0b00001111], .rrc), ([0b00010111], .ral), ([0b00011111], .rar)] := by decide

/-- Jumps and calls, with the condition codes of R64 (R183 to R202). -/
theorem test_decode_jumps_and_calls : decodesAll [
    ([0b11000011, 0x00, 0x02], .jmp 0x0200), ([0b11000010, 0x34, 0x12], .jnz 0x1234), ([0b11001010, 0x00, 0x30], .jz 0x3000),
    ([0b11010010, 0x00, 0x30], .jnc 0x3000), ([0b11011010, 0x00, 0x30], .jc 0x3000), ([0b11100010, 0x10, 0x00], .jpo 0x0010),
    ([0b11101010, 0x10, 0x00], .jpe 0x0010), ([0b11110010, 0x00, 0x05], .jp 0x0500), ([0b11111010, 0x00, 0x05], .jm 0x0500),
    ([0b11001101, 0x00, 0x02], .call 0x0200), ([0b11000100, 0x00, 0x02], .cnz 0x0200), ([0b11001100, 0x00, 0x02], .cz 0x0200),
    ([0b11010100, 0x50, 0x00], .cnc 0x0050), ([0b11011100, 0x50, 0x00], .cc 0x0050), ([0b11100100, 0x50, 0x00], .cpo 0x0050),
    ([0b11101100, 0x50, 0x00], .cpe 0x0050), ([0b11110100, 0x50, 0x00], .cp 0x0050),
    ([0b11111100, 0x50, 0x00], .cm 0x0050)] := by decide

/-- Returns, PCHL, RST, stack and exchange (R203 to R226). -/
theorem test_decode_returns_and_stack : decodesAll [
    ([0b11001001], .ret), ([0b11000000], .rnz), ([0b11001000], .rz), ([0b11010000], .rnc), ([0b11011000], .rc),
    ([0b11100000], .rpo), ([0b11101000], .rpe), ([0b11110000], .rp), ([0b11111000], .rm), ([0b11101001], .pchl),
    ([0b11010111], .rst 2), ([0b11111111], .rst 7), ([0b11010101], .push (.pair .de)), ([0b11110101], .push .psw),
    ([0b11100001], .pop (.pair .hl)), ([0b11110001], .pop .psw), ([0b11101011], .xchg), ([0b11100011], .xthl),
    ([0b11111001], .sphl)] := by decide

/-- Input/output and control, and the twelve undefined bytes (R240 to R249, R65). -/
theorem test_decode_control_and_undefined : decodesAll [
    ([0b11011011, 0x01], .inp 0x01), ([0b11010011, 0x04], .out 0x04), ([0b11111011], .ei), ([0b11110011], .di),
    ([0b00000000], .nop), ([0b01110110], .hlt), ([0x08], .undefined .x08), ([0x10], .undefined .x10),
    ([0x18], .undefined .x18), ([0x20], .undefined .x20), ([0x28], .undefined .x28), ([0x30], .undefined .x30),
    ([0x38], .undefined .x38), ([0xCB], .undefined .xCB), ([0xD9], .undefined .xD9), ([0xDD], .undefined .xDD),
    ([0xED], .undefined .xED), ([0xFD], .undefined .xFD)] := by decide

/-- R76 counts 18 two-byte and 26 three-byte opcodes. -/
theorem test_opcode_lengths_count :
    twoByteOpcodes.length = 18 ∧ threeByteOpcodes.length = 26 ∧ (twoByteOpcodes ++ threeByteOpcodes).Nodup := by decide

/-- A list that ends inside an instruction is refused by name. -/
theorem test_decode_refuses_short_list : decode [0xC3, 0x00] = .error (.missingOperandBytes 0xC3) := by rfl

/-- A table word's low byte is the opcode; `JMP` given without operand bits has the operand 0000. -/
theorem test_decodeTableWord_jmp : decodeTableWord 8 0xC3 = some (.jmp 0x0000) := by decide

theorem test_decodeTableWord_lxi : decodeTableWord 24 0x123421 = some (.lxi (.pair .hl) 0x1234) := by decide

/-! ### One Step each -/

/-- The start state of the spec's vectors: PC 0100, SP 2400, the rest zero and false, both hooks there, full memory. -/
def base : State := { State.reset with pc := 0x0100, sp := 0x2400 }

/-- `s` with bytes standing at its PC. -/
def program (bytes : List Byte) (s : State) : State := { s with mem := Memory.writeAll s.mem s.pc.toNat bytes }

/-- One Step takes `s` to `expected s`, the whole state compared. -/
abbrev stepsTo (s : State) (expected : State → State) : Prop := nextOf (step s) = some (expected s)

/-- The reset state runs a planted instruction as its very first Step. -/
theorem test_withFetchWord_runs_first :
    (nextOf (step (State.reset.withFetchWord 16 0x423E))).map (fun t => (t.regs.a, t.pc)) = some (0x42, 2) := by decide

theorem test_v4_mov_h_m : stepsTo (program [0x66] { base with regs := { base.regs with h := 0x20, l := 0x10 }, mem := (Memory.write base.mem 0x2010 0x99) })
    (fun s => { s with regs := { s.regs with h := 0x99 }, pc := 0x0101, cycles := 7 }) := by decide

theorem test_v6_mvi_e_0xff : stepsTo (program [0x1E, 0xFF] base)
    (fun s => { s with regs := { s.regs with e := 0xFF }, z := 0xFF, pc := 0x0102, cycles := 7 }) := by decide

theorem test_v7_mvi_m_0x80 : stepsTo (program [0x36, 0x80] { base with regs := { base.regs with h := 0xFF, l := 0xFF } })
    (fun s => { s with z := 0x80, pc := 0x0102, mem := (Memory.write s.mem 0xFFFF 0x80), cycles := 10 }) := by decide

theorem test_v8_lxi_sp_0xfffe : stepsTo (program [0x31, 0xFE, 0xFF] base)
    (fun s => { s with w := 0xFF, z := 0xFE, pc := 0x0103, sp := 0xFFFE, cycles := 10 }) := by decide

theorem test_v10_stax_d : stepsTo (program [0x12] { base with regs := { base.regs with a := 0xAA, d := 0x30, e := 0x00 } })
    (fun s => { s with pc := 0x0101, mem := (Memory.write s.mem 0x3000 0xAA), cycles := 7 }) := by decide

theorem test_v11_ldax_b : stepsTo (program [0x0A] { base with regs := { base.regs with b := 0x30, c := 0x00 }, mem := (Memory.write base.mem 0x3000 0x5C) })
    (fun s => { s with regs := { s.regs with a := 0x5C }, pc := 0x0101, cycles := 7 }) := by decide

theorem test_v12_shld_0xffff : stepsTo (program [0x22, 0xFF, 0xFF] { base with regs := { base.regs with h := 0x12, l := 0x34 } })
    (fun s => { s with w := 0xFF, z := 0xFF, pc := 0x0103, mem := (Memory.write (Memory.write s.mem 0x0000 0x12) 0xFFFF 0x34), cycles := 16 }) := by decide

theorem test_v14_lhld_0xffff : stepsTo (program [0x2A, 0xFF, 0xFF] { base with mem := (Memory.write (Memory.write base.mem 0xFFFF 0xCD) 0x0000 0xAB) })
    (fun s => { s with regs := { s.regs with h := 0xAB, l := 0xCD }, w := 0xFF, z := 0xFF, pc := 0x0103, cycles := 16 }) := by decide

theorem test_v15_sta_0x0103 : stepsTo (program [0x32, 0x03, 0x01, 0x00] { base with regs := { base.regs with a := 0x3C } })
    (fun s => { s with w := 0x01, z := 0x03, pc := 0x0103, mem := (Memory.write s.mem 0x0103 0x3C), cycles := 13 }) := by decide

theorem test_v16_lda_0x3000 : stepsTo (program [0x3A, 0x00, 0x30] { base with mem := (Memory.write base.mem 0x3000 0x7E) })
    (fun s => { s with regs := { s.regs with a := 0x7E }, w := 0x30, pc := 0x0103, cycles := 13 }) := by decide

theorem test_v17_mvi_a_d8_at_pc_ffff : stepsTo (program [0x3E] { base with pc := 0xFFFF, mem := (Memory.write base.mem 0x0000 0x42) })
    (fun s => { s with regs := { s.regs with a := 0x42 }, z := 0x42, pc := 0x0001, cycles := 7 }) := by decide

theorem test_v21_add_b : stepsTo (program [0x80] { base with regs := { base.regs with a := 0x7F, b := 0x01 } })
    (fun s => { s with regs := { s.regs with a := 0x80 }, pc := 0x0101, cycles := 4, flags := ⟨true, false, true, false, false⟩ }) := by decide

theorem test_v23_adc_b : stepsTo (program [0x88] { base with regs := { base.regs with a := 0x0F, b := 0x00 }, flags := { base.flags with carry := true } })
    (fun s => { s with regs := { s.regs with a := 0x10 }, pc := 0x0101, cycles := 4, flags := ⟨false, false, true, false, false⟩ }) := by decide

theorem test_v30_sub_m : stepsTo (program [0x96] { base with regs := { base.regs with a := 0x05, h := 0x20, l := 0x00 }, mem := (Memory.write base.mem 0x2000 0x06) })
    (fun s => { s with regs := { s.regs with a := 0xFF }, pc := 0x0101, cycles := 7, flags := ⟨true, false, true, true, true⟩ }) := by decide

theorem test_v33_sbb_b : stepsTo (program [0x98] { base with regs := { base.regs with a := 0xFF, b := 0xFF }, flags := { base.flags with carry := true } })
    (fun s => { s with pc := 0x0101, cycles := 4, flags := ⟨true, false, true, true, true⟩ }) := by decide

theorem test_v35_adi_0x01 : stepsTo (program [0xC6, 0x01] { base with regs := { base.regs with a := 0xFF } })
    (fun s => { s with regs := { s.regs with a := 0x00 }, z := 0x01, pc := 0x0102, cycles := 7, flags := ⟨false, true, true, true, true⟩ }) := by decide

theorem test_v36_aci_0xff : stepsTo (program [0xCE, 0xFF] { base with regs := { base.regs with a := 0x00 }, flags := { base.flags with carry := true } })
    (fun s => { s with z := 0xFF, pc := 0x0102, cycles := 7, flags := ⟨false, true, true, true, true⟩ }) := by decide

theorem test_v37_sui_0x80 : stepsTo (program [0xD6, 0x80] { base with regs := { base.regs with a := 0x7F } })
    (fun s => { s with regs := { s.regs with a := 0xFF }, z := 0x80, pc := 0x0102, cycles := 7, flags := ⟨true, false, false, true, true⟩ }) := by decide

theorem test_v38_sbi_0x00 : stepsTo (program [0xDE, 0x00] { base with regs := { base.regs with a := 0x00 }, flags := { base.flags with carry := true } })
    (fun s => { s with regs := { s.regs with a := 0xFF }, pc := 0x0102, cycles := 7, flags := ⟨true, false, true, true, true⟩ }) := by decide

theorem test_v41_dcr_a : stepsTo (program [0x3D] { base with regs := { base.regs with a := 0x00 } })
    (fun s => { s with regs := { s.regs with a := 0xFF }, pc := 0x0101, cycles := 5, flags := ⟨true, false, true, true, false⟩ }) := by decide

theorem test_v43_inr_m : stepsTo (program [0x34] { base with regs := { base.regs with h := 0x20, l := 0x00 }, mem := (Memory.write base.mem 0x2000 0xFF) })
    (fun s => { s with pc := 0x0101, mem := (Memory.write s.mem 0x2000 0x00), cycles := 10, flags := ⟨false, true, true, true, false⟩ }) := by decide

theorem test_v44_dcr_m : stepsTo (program [0x35] { base with regs := { base.regs with h := 0x20, l := 0x00 }, flags := { base.flags with carry := true }, mem := (Memory.write base.mem 0x2000 0x01) })
    (fun s => { s with pc := 0x0101, mem := (Memory.write s.mem 0x2000 0x00), cycles := 10, flags := ⟨false, true, false, true, true⟩ }) := by decide

theorem test_v46_inx_h : stepsTo (program [0x23] { base with regs := { base.regs with h := 0x00, l := 0xFF }, flags := { base.flags with zero := true } })
    (fun s => { s with regs := { s.regs with h := 0x01, l := 0x00 }, pc := 0x0101, cycles := 5, flags := ⟨false, true, false, false, false⟩ }) := by decide

theorem test_v48_dcx_sp : stepsTo (program [0x3B] { base with sp := 0x0000 })
    (fun s => { s with pc := 0x0101, sp := 0xFFFF, cycles := 5 }) := by decide

theorem test_v50_dad_sp : stepsTo (program [0x39] { base with regs := { base.regs with h := 0x00, l := 0x00 }, sp := 0x23FE, flags := { base.flags with carry := true } })
    (fun s => { s with regs := { s.regs with h := 0x23, l := 0xFE }, pc := 0x0101, cycles := 10, flags := ⟨false, false, false, false, false⟩ }) := by decide

theorem test_v54_daa : stepsTo (program [0x27] { base with regs := { base.regs with a := 0x99 }, flags := { base.flags with auxCarry := true } })
    (fun s => { s with regs := { s.regs with a := 0x9F }, pc := 0x0101, cycles := 4, flags := ⟨true, false, true, true, false⟩ }) := by decide

theorem test_v56_daa : stepsTo (program [0x27] { base with regs := { base.regs with a := 0xFA } })
    (fun s => { s with regs := { s.regs with a := 0x00 }, pc := 0x0101, cycles := 4, flags := ⟨false, true, true, true, false⟩ }) := by decide

theorem test_v60_ana_a : stepsTo (program [0xA7] { base with regs := { base.regs with a := 0x80 }, flags := { base.flags with carry := true, auxCarry := true } })
    (fun s => { s with pc := 0x0101, cycles := 4, flags := ⟨true, false, false, false, false⟩ }) := by decide

theorem test_v64_xra_m : stepsTo (program [0xAE] { base with regs := { base.regs with a := 0xFF, h := 0x20, l := 0x00 }, mem := (Memory.write base.mem 0x2000 0x7F) })
    (fun s => { s with regs := { s.regs with a := 0x80 }, pc := 0x0101, cycles := 7, flags := ⟨true, false, false, false, false⟩ }) := by decide

theorem test_v66_ora_a : stepsTo (program [0xB7] { base with regs := { base.regs with a := 0xFF }, flags := { base.flags with auxCarry := true } })
    (fun s => { s with pc := 0x0101, cycles := 4, flags := ⟨true, false, false, true, false⟩ }) := by decide

theorem test_v69_cmp_b : stepsTo (program [0xB8] { base with regs := { base.regs with a := 0x00, b := 0xFF } })
    (fun s => { s with pc := 0x0101, cycles := 4, flags := ⟨false, false, true, false, true⟩ }) := by decide

theorem test_v72_ani_0x00 : stepsTo (program [0xE6, 0x00] { base with regs := { base.regs with a := 0xFF }, flags := { base.flags with carry := true, auxCarry := true } })
    (fun s => { s with regs := { s.regs with a := 0x00 }, pc := 0x0102, cycles := 7, flags := ⟨false, true, false, true, false⟩ }) := by decide

theorem test_v73_xri_0xff : stepsTo (program [0xEE, 0xFF] { base with regs := { base.regs with a := 0x0F } })
    (fun s => { s with regs := { s.regs with a := 0xF0 }, z := 0xFF, pc := 0x0102, cycles := 7, flags := ⟨true, false, false, true, false⟩ }) := by decide

theorem test_v74_ori_0x80 : stepsTo (program [0xF6, 0x80] { base with regs := { base.regs with a := 0x01 }, flags := { base.flags with carry := true } })
    (fun s => { s with regs := { s.regs with a := 0x81 }, z := 0x80, pc := 0x0102, cycles := 7, flags := ⟨true, false, false, true, false⟩ }) := by decide

theorem test_v76_cpi_0x06 : stepsTo (program [0xFE, 0x06] { base with regs := { base.regs with a := 0x05 } })
    (fun s => { s with z := 0x06, pc := 0x0102, cycles := 7, flags := ⟨true, false, true, true, true⟩ }) := by decide

theorem test_v77_cma : stepsTo (program [0x2F] { base with regs := { base.regs with a := 0x00 }, flags := { base.flags with zero := true, carry := true } })
    (fun s => { s with regs := { s.regs with a := 0xFF }, pc := 0x0101, cycles := 4, flags := ⟨false, true, false, false, true⟩ }) := by decide

theorem test_v78_stc : stepsTo (program [0x37] { base with flags := { base.flags with carry := true, zero := true } })
    (fun s => { s with pc := 0x0101, cycles := 4, flags := ⟨false, true, false, false, true⟩ }) := by decide

theorem test_v79_cmc : stepsTo (program [0x3F] { base with flags := { base.flags with carry := false, sign := true } })
    (fun s => { s with pc := 0x0101, cycles := 4, flags := ⟨true, false, false, false, true⟩ }) := by decide

theorem test_v81_rlc : stepsTo (program [0x07] { base with regs := { base.regs with a := 0x55 }, flags := { base.flags with carry := true } })
    (fun s => { s with regs := { s.regs with a := 0xAA }, pc := 0x0101, cycles := 4, flags := ⟨false, false, false, false, false⟩ }) := by decide

theorem test_v83_rrc : stepsTo (program [0x0F] { base with regs := { base.regs with a := 0xAA }, flags := { base.flags with carry := true } })
    (fun s => { s with regs := { s.regs with a := 0x55 }, pc := 0x0101, cycles := 4, flags := ⟨false, false, false, false, false⟩ }) := by decide

theorem test_v84_ral : stepsTo (program [0x17] { base with regs := { base.regs with a := 0x80 }, flags := { base.flags with carry := true } })
    (fun s => { s with regs := { s.regs with a := 0x01 }, pc := 0x0101, cycles := 4, flags := ⟨false, false, false, false, true⟩ }) := by decide

theorem test_v87_rar : stepsTo (program [0x1F] { base with regs := { base.regs with a := 0x81 }, flags := { base.flags with carry := false, parity := true } })
    (fun s => { s with regs := { s.regs with a := 0x40 }, pc := 0x0101, cycles := 4, flags := ⟨false, false, false, true, true⟩ }) := by decide

theorem test_v90_jmp_0x0100 : stepsTo (program [0xC3, 0x00, 0x01] base)
    (fun s => { s with w := 0x01, pc := 0x0100, cycles := 10 }) := by decide

theorem test_v91_jnz_0x2000_not_taken : stepsTo (program [0xC2, 0x00, 0x20] { base with flags := { base.flags with zero := true } })
    (fun s => { s with w := 0x20, pc := 0x0103, cycles := 10, flags := ⟨false, true, false, false, false⟩ }) := by decide

theorem test_v92_jz_0x2000_taken : stepsTo (program [0xCA, 0x00, 0x20] { base with flags := { base.flags with zero := true } })
    (fun s => { s with w := 0x20, pc := 0x2000, cycles := 10, flags := ⟨false, true, false, false, false⟩ }) := by decide

theorem test_v93_jnc_0x2000_taken : stepsTo (program [0xD2, 0x00, 0x20] base)
    (fun s => { s with w := 0x20, pc := 0x2000, cycles := 10 }) := by decide

theorem test_v94_jc_0x2000_not_taken : stepsTo (program [0xDA, 0x00, 0x20] base)
    (fun s => { s with w := 0x20, pc := 0x0103, cycles := 10 }) := by decide

theorem test_v95_jpo_0x2000_taken : stepsTo (program [0xE2, 0x00, 0x20] base)
    (fun s => { s with w := 0x20, pc := 0x2000, cycles := 10 }) := by decide

theorem test_v96_jpe_0x2000_taken : stepsTo (program [0xEA, 0x00, 0x20] { base with flags := { base.flags with parity := true } })
    (fun s => { s with w := 0x20, pc := 0x2000, cycles := 10, flags := ⟨false, false, false, true, false⟩ }) := by decide

theorem test_v97_jp_0x2000_not_taken : stepsTo (program [0xF2, 0x00, 0x20] { base with flags := { base.flags with sign := true } })
    (fun s => { s with w := 0x20, pc := 0x0103, cycles := 10, flags := ⟨true, false, false, false, false⟩ }) := by decide

theorem test_v98_jm_0x2000_taken : stepsTo (program [0xFA, 0x00, 0x20] { base with flags := { base.flags with sign := true } })
    (fun s => { s with w := 0x20, pc := 0x2000, cycles := 10, flags := ⟨true, false, false, false, false⟩ }) := by decide

theorem test_v100_call_0x1234_with_sp_0001 : stepsTo (program [0xCD, 0x34, 0x12] { base with sp := 0x0001 })
    (fun s => { s with w := 0x12, z := 0x34, pc := 0x1234, sp := 0xFFFF, mem := (Memory.write (Memory.write s.mem 0x0000 0x01) 0xFFFF 0x03), cycles := 17 }) := by decide

theorem test_v101_cnz_0x0200_not_taken : stepsTo (program [0xC4, 0x00, 0x02] { base with flags := { base.flags with zero := true } })
    (fun s => { s with w := 0x02, pc := 0x0103, cycles := 11, flags := ⟨false, true, false, false, false⟩ }) := by decide

theorem test_v102_cz_0x0200_taken : stepsTo (program [0xCC, 0x00, 0x02] { base with flags := { base.flags with zero := true } })
    (fun s => { s with w := 0x02, pc := 0x0200, sp := 0x23FE, mem := (Memory.write (Memory.write s.mem 0x23FE 0x03) 0x23FF 0x01), cycles := 17, flags := ⟨false, true, false, false, false⟩ }) := by decide

theorem test_v103_cnc_0x0200_taken : stepsTo (program [0xD4, 0x00, 0x02] base)
    (fun s => { s with w := 0x02, pc := 0x0200, sp := 0x23FE, mem := (Memory.write (Memory.write s.mem 0x23FE 0x03) 0x23FF 0x01), cycles := 17 }) := by decide

theorem test_v104_cc_0x0200_taken : stepsTo (program [0xDC, 0x00, 0x02] { base with flags := { base.flags with carry := true } })
    (fun s => { s with w := 0x02, pc := 0x0200, sp := 0x23FE, mem := (Memory.write (Memory.write s.mem 0x23FE 0x03) 0x23FF 0x01), cycles := 17, flags := ⟨false, false, false, false, true⟩ }) := by decide

theorem test_v105_cpo_0x0200_not_taken : stepsTo (program [0xE4, 0x00, 0x02] { base with flags := { base.flags with parity := true } })
    (fun s => { s with w := 0x02, pc := 0x0103, cycles := 11, flags := ⟨false, false, false, true, false⟩ }) := by decide

theorem test_v106_cpe_0x0200_taken : stepsTo (program [0xEC, 0x00, 0x02] { base with flags := { base.flags with parity := true } })
    (fun s => { s with w := 0x02, pc := 0x0200, sp := 0x23FE, mem := (Memory.write (Memory.write s.mem 0x23FE 0x03) 0x23FF 0x01), cycles := 17, flags := ⟨false, false, false, true, false⟩ }) := by decide

theorem test_v107_cp_0x0200_taken : stepsTo (program [0xF4, 0x00, 0x02] base)
    (fun s => { s with w := 0x02, pc := 0x0200, sp := 0x23FE, mem := (Memory.write (Memory.write s.mem 0x23FE 0x03) 0x23FF 0x01), cycles := 17 }) := by decide

theorem test_v108_cm_0x0200_not_taken : stepsTo (program [0xFC, 0x00, 0x02] base)
    (fun s => { s with w := 0x02, pc := 0x0103, cycles := 11 }) := by decide

theorem test_v110_ret_with_sp_ffff : stepsTo (program [0xC9] { base with sp := 0xFFFF, pc := 0x0200, mem := (Memory.write (Memory.write base.mem 0xFFFF 0x34) 0x0000 0x12) })
    (fun s => { s with pc := 0x1234, sp := 0x0001, cycles := 10 }) := by decide

theorem test_v111_rnz_taken : stepsTo (program [0xC0] { base with sp := 0x1FFE, pc := 0x0200, mem := (Memory.write (Memory.write base.mem 0x1FFE 0x03) 0x1FFF 0x01) })
    (fun s => { s with pc := 0x0103, sp := 0x2000, cycles := 11 }) := by decide

theorem test_v112_rz_not_taken : stepsTo (program [0xC8] { base with sp := 0x1FFE, pc := 0x0200, mem := (Memory.write (Memory.write base.mem 0x1FFE 0x03) 0x1FFF 0x01) })
    (fun s => { s with pc := 0x0201, cycles := 5 }) := by decide

theorem test_v113_rnc_not_taken : stepsTo (program [0xD0] { base with sp := 0x1FFE, pc := 0x0200, flags := { base.flags with carry := true } })
    (fun s => { s with pc := 0x0201, cycles := 5, flags := ⟨false, false, false, false, true⟩ }) := by decide

theorem test_v114_rc_taken : stepsTo (program [0xD8] { base with sp := 0x1FFE, pc := 0x0200, flags := { base.flags with carry := true }, mem := (Memory.write (Memory.write base.mem 0x1FFE 0x03) 0x1FFF 0x01) })
    (fun s => { s with pc := 0x0103, sp := 0x2000, cycles := 11, flags := ⟨false, false, false, false, true⟩ }) := by decide

theorem test_v115_rpo_taken : stepsTo (program [0xE0] { base with sp := 0x1FFE, pc := 0x0200, mem := (Memory.write (Memory.write base.mem 0x1FFE 0x03) 0x1FFF 0x01) })
    (fun s => { s with pc := 0x0103, sp := 0x2000, cycles := 11 }) := by decide

theorem test_v116_rpe_not_taken : stepsTo (program [0xE8] { base with sp := 0x1FFE, pc := 0x0200 })
    (fun s => { s with pc := 0x0201, cycles := 5 }) := by decide

theorem test_v117_rp_taken : stepsTo (program [0xF0] { base with sp := 0x1FFE, pc := 0x0200, mem := (Memory.write (Memory.write base.mem 0x1FFE 0x03) 0x1FFF 0x01) })
    (fun s => { s with pc := 0x0103, sp := 0x2000, cycles := 11 }) := by decide

theorem test_v118_rm_not_taken : stepsTo (program [0xF8] { base with sp := 0x1FFE, pc := 0x0200 })
    (fun s => { s with pc := 0x0201, cycles := 5 }) := by decide

theorem test_v119_pchl : stepsTo (program [0xE9] { base with regs := { base.regs with h := 0xFF, l := 0xFF } })
    (fun s => { s with pc := 0xFFFF, cycles := 5 }) := by decide

theorem test_v121_rst_5 : stepsTo (program [0xEF] base)
    (fun s => { s with pc := 0x0028, sp := 0x23FE, mem := (Memory.write (Memory.write s.mem 0x23FE 0x01) 0x23FF 0x01), cycles := 11 }) := by decide

theorem test_v131_push_h_with_sp_0000 : stepsTo (program [0xE5] { base with regs := { base.regs with h := 0xAB, l := 0xCD }, sp := 0x0000 })
    (fun s => { s with pc := 0x0101, sp := 0xFFFE, mem := (Memory.write (Memory.write s.mem 0xFFFE 0xCD) 0xFFFF 0xAB), cycles := 11 }) := by decide

theorem test_v132_push_psw_all_flags_true : stepsTo (program [0xF5] { base with regs := { base.regs with a := 0xA5 }, flags := { base.flags with sign := true, zero := true, auxCarry := true, parity := true, carry := true } })
    (fun s => { s with pc := 0x0101, sp := 0x23FE, mem := (Memory.write (Memory.write s.mem 0x23FE 0xD7) 0x23FF 0xA5), cycles := 11, flags := ⟨true, true, true, true, true⟩ }) := by decide

theorem test_v134_pop_d : stepsTo (program [0xD1] { base with sp := 0x2000, mem := (Memory.write (Memory.write base.mem 0x2000 0xCD) 0x2001 0xAB) })
    (fun s => { s with regs := { s.regs with d := 0xAB, e := 0xCD }, pc := 0x0101, sp := 0x2002, cycles := 10 }) := by decide

theorem test_v136_pop_psw_byte_28 : stepsTo (program [0xF1] { base with sp := 0x2000, flags := { base.flags with carry := true, zero := true }, mem := (Memory.write (Memory.write base.mem 0x2000 0x28) 0x2001 0x34) })
    (fun s => { s with regs := { s.regs with a := 0x34 }, pc := 0x0101, sp := 0x2002, cycles := 10, flags := ⟨false, false, false, false, false⟩ }) := by decide

theorem test_v138_xchg : stepsTo (program [0xEB] { base with regs := { base.regs with h := 0x12, l := 0x34, d := 0xAB, e := 0xCD } })
    (fun s => { s with regs := { s.regs with d := 0x12, e := 0x34, h := 0xAB, l := 0xCD }, pc := 0x0101, cycles := 4 }) := by decide

theorem test_v140_xthl_with_sp_ffff : stepsTo (program [0xE3] { base with regs := { base.regs with h := 0x12, l := 0x34 }, sp := 0xFFFF, mem := (Memory.write (Memory.write base.mem 0xFFFF 0xCD) 0x0000 0xAB) })
    (fun s => { s with regs := { s.regs with h := 0xAB, l := 0xCD }, pc := 0x0101, mem := (Memory.write (Memory.write s.mem 0x0000 0x12) 0xFFFF 0x34), cycles := 18 }) := by decide

theorem test_v141_sphl : stepsTo (program [0xF9] { base with regs := { base.regs with h := 0x00, l := 0x00 } })
    (fun s => { s with pc := 0x0101, sp := 0x0000, cycles := 5 }) := by decide

theorem test_v144_di_with_a_request_pending : stepsTo (program [0xF3] { base with inte := false, pending := some 0xD7 })
    (fun s => { s with pc := 0x0101, cycles := 4 }) := by decide

theorem test_v145_nop : stepsTo (program [0x00] base)
    (fun s => { s with pc := 0x0101, cycles := 4 }) := by decide

theorem test_v146_in_0x01_readport_01_answers_08 : stepsTo (program [0xDB, 0x01] { base with regs := { base.regs with a := 0xFF }, flags := { base.flags with zero := true }, portAnswers := [0x08] })
    (fun s => { s with regs := { s.regs with a := 0x08 }, z := 0x01, pc := 0x0102, portEvents := [.read 0x01 0x08], cycles := 10, portAnswers := [], flags := ⟨false, true, false, false, false⟩ }) := by decide

theorem test_v147_out_0x04 : stepsTo (program [0xD3, 0x04] { base with regs := { base.regs with a := 0x3F } })
    (fun s => { s with z := 0x04, pc := 0x0102, portEvents := [.write 0x04 0x3F], cycles := 10 }) := by decide

theorem test_v148_ei : stepsTo (program [0xFB] base)
    (fun s => { s with pc := 0x0101, inte := true, cycles := 4 }) := by decide

theorem test_v150_interrupt_vector_d7 : stepsTo (program [0x3C] { base with inte := true, pc := 0x1234, pending := some 0xD7, mem := (Memory.write base.mem 0x1234 0x3C) })
    (fun s => { s with pc := 0x0010, sp := 0x23FE, pending := none, mem := (Memory.write (Memory.write s.mem 0x23FE 0x34) 0x23FF 0x12), cycles := 11 }) := by decide

theorem test_v151_request_pending_inte_false : stepsTo (program [0x3C] { base with inte := false, pc := 0x1234, pending := some 0xD7 })
    (fun s => { s with regs := { s.regs with a := 0x01 }, pc := 0x1235, cycles := 5 }) := by decide

theorem test_v153_interrupt_vector_cd : stepsTo (program [0x3C] { base with inte := true, pc := 0x1234, w := 0x02, z := 0x00, pending := some 0xCD })
    (fun s => { s with pc := 0x0200, sp := 0x23FE, pending := none, mem := (Memory.write (Memory.write s.mem 0x23FE 0x34) 0x23FF 0x12), cycles := 17 }) := by decide

theorem test_v155_interrupt_vector_76 : faultOf (step (program [0x3C] { base with inte := true, pc := 0x1234, pending := some 0x76 })) = some .unimplementedOpcode := by decide

theorem test_v160_hlt : faultOf (step (program [0x76] { base with regs := { base.regs with a := 0x11 } })) = some .unimplementedOpcode := by decide

theorem test_v168_byte_cb : faultOf (step (program [0xCB, 0x00, 0x02] base)) = some .unimplementedOpcode := by decide

theorem test_v173_in_0x01_no_read_hook : faultOf (step (program [0xDB, 0x01] { base with regs := { base.regs with a := 0x55 }, config := { base.config with readPortBound := false } })) = some .missingPortHandler := by decide

theorem test_v174_out_0x01_no_write_hook : faultOf (step (program [0xD3, 0x01] { base with regs := { base.regs with a := 0x55 }, config := { base.config with writePortBound := false } })) = some .missingPortHandler := by decide

theorem test_v176_sta_0x4000 : faultOf (step (program [0x32, 0x00, 0x40] { base with regs := { base.regs with a := 0x55 }, config := { base.config with memCapacity := 0x4000 } })) = some .outOfBoundsAccess := by decide

theorem test_v181_mvi_a_0x42_at_pc_3fff : faultOf (step (program [0x3E, 0x42] { base with pc := 0x3FFF, config := { base.config with memCapacity := 0x4000 } })) = some .outOfBoundsAccess := by decide

theorem test_v182_shld_0x3fff : faultOf (step (program [0x22, 0xFF, 0x3F] { base with regs := { base.regs with h := 0x12, l := 0x34 }, config := { base.config with memCapacity := 0x4000 } })) = some .outOfBoundsAccess := by decide

theorem test_v183_interrupt_vector_d7_with_sp_4001 : faultOf (step (program [0x00] { base with inte := true, sp := 0x4001, pending := some 0xD7, config := { base.config with memCapacity := 0x4000 } })) = some .outOfBoundsAccess := by decide

theorem test_v185_xthl_with_sp_3fff : faultOf (step (program [0xE3] { base with regs := { base.regs with h := 0x12, l := 0x34 }, sp := 0x3FFF, config := { base.config with memCapacity := 0x4000 } })) = some .outOfBoundsAccess := by decide

/-! ### Witnesses: the hypotheses of each obligation, met together -/

/-- `base` with a quarter of the default capacity: addresses 4000 and above do not exist. -/
def small : State := { base with config := { base.config with memCapacity := 0x4000 } }

/-- `s` with the given H and L. -/
def hlAt (s : State) (h l : Byte) : State := { s with regs := { s.regs with h := h, l := l } }

theorem witness_decodeOfEncode : Instr.wf (.mov .m (.reg .l)) = true ∧ Instr.wf (.mov (.reg .l) .m) = true := by decide

theorem witness_decodeTakesTheLength : decode [0x3E, 0x42, 0x99] = .ok (.mvi (.reg .a) 0x42, [0x99]) := by rfl

/-- A 3-byte instruction that wraps around the end of memory, as in V18. -/
theorem witness_stepRuns :
    let s := program [0x21, 0x34] { base with pc := 0xFFFE, mem := Memory.write base.mem 0 0x12 }
    ¬ Accepts s ∧ decode [0x21, 0x34, 0x12] = .ok (.lxi (.pair .hl) 0x1234, []) ∧ AtPc s [0x21, 0x34, 0x12] :=
  ⟨by unfold Accepts; decide, rfl, by unfold AtPc InMemory; decide⟩

/-- The first, the second, the third byte outside Memory. -/
theorem witness_fetchOutside :
    let s1 : State := { small with pc := 0x4000 }
    let s2 := program [0x3E] { small with pc := 0x3FFF }
    let s3 := program [0x21, 0x34] { small with pc := 0x3FFE }
    (¬ Accepts s1 ∧ ¬ InMemory s1 s1.pc.toNat) ∧
    (¬ Accepts s2 ∧ 2 ≤ opLength (Memory.read s2.mem s2.pc.toNat) ∧ ¬ InMemory s2 ((s2.pc.toNat + 1) % 65536)) ∧
    (¬ Accepts s3 ∧ opLength (Memory.read s3.mem s3.pc.toNat) = 3 ∧ ¬ InMemory s3 ((s3.pc.toNat + 2) % 65536)) := by
  unfold Accepts InMemory; decide

/-- CALL as a vector, with the stale latches of V153. -/
theorem witness_acceptedVector :
    let s : State := { base with inte := true, pending := some 0xCD, w := 0x02, z := 0x00 }
    s.inte = true ∧ s.pending = some 0xCD ∧ decode ([0xCD, s.z, s.w].take (opLength 0xCD)) = .ok (.call 0x0200, []) :=
  ⟨rfl, rfl, rfl⟩

/-- RST 2 with SP = 0001, whose two bytes are 0000 and FFFF, and with SP = 4001 in the small memory. -/
theorem witness_rstInterrupt :
    let s : State := { base with inte := true, pending := some 0xD7, sp := 0x0001 }
    let u : State := { small with inte := true, pending := some 0xD7, sp := 0x4001 }
    (Memory.wf s.mem ∧ s.inte = true ∧ s.pending = some (BitVec.ofNat 8 (0xC7 + 8 * (2 : Fin 8).val)) ∧ Pushable s) ∧
    (Memory.wf u.mem ∧ u.inte = true ∧ u.pending = some (BitVec.ofNat 8 (0xC7 + 8 * (2 : Fin 8).val)) ∧ ¬ Pushable u) := by
  unfold Pushable InMemory; decide

/-- An accepted request, and one that stays masked. -/
theorem witness_pendingSlot :
    (∃ t, step { base with inte := true, pending := some 0x00 } = .next t) ∧
    ∃ t, step { base with inte := false, pending := some 0x00 } = .next t := ⟨⟨_, rfl⟩, ⟨_, rfl⟩⟩

theorem witness_onlyEiAndDi :
    (∃ t, exec .ei base = .next t) ∧ (∃ t, exec .di base = .next t) ∧ (∃ t, exec .nop base = .next t) ∧
    (Instr.nop ≠ .ei ∧ Instr.nop ≠ .di) ∧
    let s : State := { base with inte := true, pending := some 0x00 }
    s.inte = true ∧ s.pending ≠ none ∧ s.pending ≠ some 0xF3 ∧ ∃ t, step s = .next t :=
  ⟨⟨_, rfl⟩, ⟨_, rfl⟩, ⟨_, rfl⟩, by decide, rfl, by decide, by decide, ⟨_, rfl⟩⟩

theorem witness_fullMemory : base.config.memCapacity = 65536 := by decide

/-- A fetched NOP, and an accepted RST 2. -/
theorem witness_everyOtherStep :
    let s : State := { base with inte := true, pending := some 0xD7 }
    (base.config.memCapacity = 65536 ∧ base.config.readPortBound = true ∧ base.config.writePortBound = true ∧
      ¬ Accepts base ∧ Memory.read base.mem base.pc.toNat ∉ faultingBytes) ∧
    (s.config.memCapacity = 65536 ∧ s.config.readPortBound = true ∧ s.config.writePortBound = true ∧
      Accepts s ∧ ∀ v ∈ faultingBytes, s.pending ≠ some v) := by
  unfold Accepts; decide

theorem witness_invariantStep :
    let s := program [0x32, 0xFF, 0xFF] { base with regs := { base.regs with a := 0x77 } }
    s.Inv ∧ ∃ t, step s = .next t := ⟨by decide, ⟨_, rfl⟩⟩

/-- A load at the last address, a request, a Step and a load that does not fit. -/
theorem witness_invariantSchedule :
    base.Inv ∧ ∃ t, drive base [.load [0x3E] 0xFFFF, .requestInterrupt 0xD7, .step, .load [0, 0] 0xFFFF] = .next t :=
  ⟨by decide, ⟨_, rfl⟩⟩

/-- Capacity 1 with its one byte written, and the default capacity with its last byte written. -/
theorem witness_construction :
    ((⟨1, false, false⟩ : Config).wf ∧ Memory.wf [(0, 5)] ∧ ∀ x ∈ ([(0, 5)] : Memory), x.1 < 1) ∧
    (resetConfig.wf ∧ Memory.wf [(0xFFFF, 5)] ∧ ∀ x ∈ ([(0xFFFF, 5)] : Memory), x.1 < resetConfig.memCapacity) := by
  decide

theorem witness_latches :
    (∃ t, exec (.mvi (.reg .a) 5) base = .next t) ∧ ∃ t, step (program [0x3E, 0x05] base) = .next t :=
  ⟨⟨_, rfl⟩, ⟨_, rfl⟩⟩

/-- An instruction that writes no flag, one that leaves Carry, one that writes only Carry. -/
theorem witness_unlistedFlags :
    ((∃ t, exec .nop base = .next t) ∧ writesFlags .nop = (false, false)) ∧
    ((∃ t, exec (.inr (.reg .b)) base = .next t) ∧ (writesFlags (.inr (.reg .b))).2 = false) ∧
    ((∃ t, exec (.dad .sp) base = .next t) ∧ (writesFlags (.dad .sp)).1 = false) :=
  ⟨⟨⟨_, rfl⟩, rfl⟩, ⟨⟨_, rfl⟩, rfl⟩, ⟨⟨_, rfl⟩, rfl⟩⟩

theorem witness_stackPointer :
    (∃ t, exec (.inx .sp) { base with sp := 0xFFFF } = .next t) ∧ (∃ t, exec (.push .psw) { base with sp := 0 } = .next t) ∧
    ∃ t, exec .ret { base with sp := 0xFFFF } = .next t := ⟨⟨_, rfl⟩, ⟨_, rfl⟩, ⟨_, rfl⟩⟩

theorem witness_onlyStores : storesToMemory (.inr (.reg .a)) = false ∧ ∃ t, exec (.inr (.reg .a)) base = .next t :=
  ⟨rfl, ⟨_, rfl⟩⟩

theorem witness_onlyTransfers : transfersControl .xthl = false ∧ ∃ t, exec .xthl base = .next t := ⟨rfl, ⟨_, rfl⟩⟩

/-- SHLD stores the two operand bytes of the LXI that stands next, its last byte across the end of memory. -/
theorem witness_storeIsSeen :
    let s := hlAt { base with pc := 0xFFFE, mem := Memory.write base.mem 0xFFFE 0x21 } 0x12 0x34
    let bytes : List Byte := [0x21, 0x34, 0x12]
    Memory.wf s.mem ∧ decode bytes = .ok (.lxi (.pair .hl) 0x1234, []) ∧
      ∃ t, exec (.shld 0xFFFF) s = .next t ∧ ¬ Accepts t ∧
        ∀ k (h : k < bytes.length), InMemory s ((t.pc.toNat + k) % 65536) ∧
          byteAfter s (.shld 0xFFFF) ((t.pc.toNat + k) % 65536) = bytes[k] :=
  ⟨by decide, rfl, _, rfl, by unfold Accepts; decide, by unfold InMemory; decide⟩

/-- A taken CALL pushes its return address over the instruction at its target: E3 (XTHL) at SP - 2. -/
theorem witness_storeIsSeen_call :
    let s : State := { base with pc := 0x20E3, sp := 0x2402 }
    Memory.wf s.mem ∧ decode [0xE3] = .ok (.xthl, []) ∧
      ∃ t, exec (.call 0x2400) s = .next t ∧ ¬ Accepts t ∧ t.pc = 0x2400 ∧ byteAfter s (.call 0x2400) 0x2400 = 0xE3 :=
  ⟨by decide, rfl, _, rfl, by unfold Accepts; decide, rfl, by decide⟩

theorem witness_memoryPrimitives :
    Memory.wf small.mem ∧ InMemory small (0x3FFF : Word).toNat ∧ ¬ InMemory small (0x4000 : Word).toNat := by
  unfold InMemory; decide

theorem witness_load :
    Memory.wf small.mem ∧ 0x3FFE + [1, 2].length ≤ small.config.memCapacity ∧
    small.config.memCapacity < 0x3FFF + [1, 2].length := by decide

/-- HL at the last address of memory and one above it (MOV, MVI, INR, DCR; the M forms of ADD, ADC, SUB, SBB, ANA, XRA, ORA,
CMP by `witness_operands`). -/
theorem witness_hl :
    Memory.wf (hlAt small 0x3F 0xFF).mem ∧ InMemory (hlAt small 0x3F 0xFF) (hlNat (hlAt small 0x3F 0xFF)) ∧
    ¬ InMemory (hlAt small 0x40 0x00) (hlNat (hlAt small 0x40 0x00)) := by
  unfold InMemory hlNat hlAt; decide

theorem witness_operands :
    OperandReadable (hlAt small 0x40 0x00) (.reg .l) ∧ OperandReadable (hlAt small 0x3F 0xFF) .m ∧
    ¬ OperandReadable (hlAt small 0x40 0x00) .m := by
  unfold OperandReadable InMemory hlNat hlAt; decide

theorem witness_staxAndLdax :
    let s : State := { small with regs := { small.regs with b := 0x3F, c := 0xFF, d := 0x40, e := 0x00 } }
    Memory.wf s.mem ∧ InMemory s (indexNat s .bc) ∧ ¬ InMemory s (indexNat s .de) := by
  unfold InMemory indexNat; decide

/-- FFFF and its successor 0000 in the full memory; 3FFF and 4000 in the small one. -/
theorem witness_shldAndLhld :
    (Memory.wf base.mem ∧ InMemory base (0xFFFF : Word).toNat ∧ InMemory base (nextAddress (0xFFFF : Word).toNat)) ∧
    (Memory.wf small.mem ∧
      ¬ (InMemory small (0x3FFF : Word).toNat ∧ InMemory small (nextAddress (0x3FFF : Word).toNat))) := by
  unfold InMemory nextAddress; decide

theorem witness_staAndLda :
    Memory.wf small.mem ∧ InMemory small (0x3FFF : Word).toNat ∧ ¬ InMemory small (0x4000 : Word).toNat := by
  unfold InMemory; decide

/-- CALL, RST, PUSH: SP = 0001 pushes at 0000 and FFFF; in the small memory SP = 4000 pushes and SP = 4001 does not. -/
theorem witness_pushes :
    let s : State := { base with sp := 0x0001 }
    let u : State := { small with sp := 0x4000 }
    let v : State := { small with sp := 0x4001 }
    (Memory.wf s.mem ∧ Pushable s) ∧ (Memory.wf u.mem ∧ Pushable u) ∧ (Memory.wf v.mem ∧ ¬ Pushable v) := by
  unfold Pushable InMemory; decide

/-- RET, POP, XTHL: SP = FFFF pops at FFFF and 0000; in the small memory SP = 3FFE pops and SP = 3FFF does not. -/
theorem witness_pops :
    let s : State := { base with sp := 0xFFFF }
    let u : State := { small with sp := 0x3FFE }
    let v : State := { small with sp := 0x3FFF }
    (Memory.wf s.mem ∧ Poppable s) ∧ (Memory.wf u.mem ∧ Poppable u) ∧ (Memory.wf v.mem ∧ ¬ Poppable v) := by
  unfold Poppable InMemory nextAddress; decide

/-- Calls and returns: a condition that holds and one that does not, in a state that can push and pop. -/
theorem witness_conditions :
    condTrue base.flags .nz = true ∧ condTrue base.flags .m = false ∧ Pushable base ∧ Poppable base := by
  unfold Pushable Poppable InMemory nextAddress; decide

theorem witness_in :
    base.config.readPortBound = true ∧ base.portAnswers = [] ∧
    (({ base with portAnswers := [0x08] } : State).portAnswers = 0x08 :: []) ∧
    ({ base with config := { base.config with readPortBound := false } } : State).config.readPortBound = false := by decide

theorem witness_out :
    base.config.writePortBound = true ∧
    ({ base with config := { base.config with writePortBound := false } } : State).config.writePortBound = false := by decide

theorem witness_ei :
    let s : State := { base with pending := some 0xD7 }
    s.pending = some 0xD7 ∧ ∃ t, exec .ei s = .next t := ⟨rfl, ⟨_, rfl⟩⟩

end Sys2Proof.Tests
end

section
/-! PROOFS. The scope family (O16, O14). What any instruction, any Step and any schedule of host actions can answer is said
once, by `Answers`: a next state whose configuration is the old one and whose memory comes from the old one by stores inside
the capacity, or a fault. Both obligations are read off it. -/

namespace Sys2Proof.Machine

/-! ### Stores inside the capacity -/

/-- Memory `m'` comes from `m` by byte stores at addresses below `cap` (R42, R292). -/
inductive Memory.Written (cap : Nat) (m : Memory) : Memory → Prop where
  | refl : Written cap m m
  | write {m' : Memory} {a : Nat} (h : Written cap m m') (ha : a < cap) (v : Byte) :
      Written cap m (Memory.write m' a v)

namespace Memory.Written

variable {cap : Nat} {m m' m'' : Memory}

theorem trans (h : Written cap m m') (h' : Written cap m' m'') : Written cap m m'' := by
  induction h' with
  | refl => exact h
  | write _ ha v ih => exact ih.write ha v

/-- Storing a run of bytes that ends inside the capacity (R292). -/
theorem writeAll {start : Nat} {bytes : List Byte} (h : Written cap m m') (hlen : start + bytes.length ≤ cap) :
    Written cap m (Memory.writeAll m' start bytes) := by
  induction bytes generalizing m' start with
  | nil => exact h
  | cons v rest ih =>
    rw [List.length_cons] at hlen
    exact ih (h.write (by omega) v) (by omega)

theorem wf (h : Written cap m m') (hm : m.wf) : m'.wf := by
  induction h with
  | refl => exact hm
  | write _ _ v ih => exact write_wf ih _ v

theorem inBounds (h : Written cap m m') (hm : ∀ x ∈ m, x.1 < cap) : ∀ x ∈ m', x.1 < cap := by
  induction h with
  | refl => exact hm
  | write _ ha v ih =>
    intro x hx
    rcases mem_write hx with hx | ⟨rfl, -⟩
    · exact ih x hx
    · exact ha

end Memory.Written

namespace State

/-- In configuration and memory, `t` differs from `s` by stores inside the capacity alone. -/
structure OnlyStores (s t : State) : Prop where
  config : t.config = s.config
  mem : Memory.Written s.config.memCapacity s.mem t.mem

namespace OnlyStores

variable {s t u : State}

/-- No store at all: what every update of registers, flags, latches and control state does. -/
theorem of_eq (hc : t.config = s.config) (hm : t.mem = s.mem) : OnlyStores s t := ⟨hc, hm ▸ .refl⟩

theorem trans (h : OnlyStores s t) (h' : OnlyStores t u) : OnlyStores s u :=
  ⟨h'.config.trans h.config, h.mem.trans (h.config ▸ h'.mem)⟩

/-- An update that leaves configuration and memory adds no store. -/
theorem congr (h : OnlyStores s t) (hc : u.config = t.config) (hm : u.mem = t.mem) : OnlyStores s u :=
  h.trans (of_eq hc hm)

/-- The invariant survives stores inside the capacity. -/
theorem inv (h : OnlyStores s t) (hs : s.Inv) : t.Inv := by
  obtain ⟨hwf, hbounds, hconfig⟩ := hs
  refine ⟨h.mem.wf hwf, ?_, h.config ▸ hconfig⟩
  rw [State.memInBounds, h.config]
  exact h.mem.inBounds hbounds

end OnlyStores

/-! ### The shared operations store inside the capacity -/

variable {s t : State} {a v16 : Word} {v : Byte}

theorem writeByte_onlyStores (h : s.writeByte a v = .ok t) : OnlyStores s t := by
  obtain ⟨ha, rfl⟩ := writeByte_ok.mp h
  exact ⟨rfl, .write .refl (inBounds_iff.mp ha) v⟩

theorem writeWord_onlyStores (h : s.writeWord a v16 = .ok t) : OnlyStores s t := by
  obtain ⟨ha, hb, rfl⟩ := writeWord_ok.mp h
  exact ⟨rfl, .write (.write .refl (inBounds_iff.mp ha) _) (inBounds_iff.mp hb) _⟩

theorem push16_onlyStores (h : s.push16 v16 = .ok t) : OnlyStores s t := by
  rw [push16_eq] at h
  split at h
  case isTrue hb =>
    cases h
    exact ⟨rfl, .write (.write .refl (inBounds_iff.mp hb.1) _) (inBounds_iff.mp hb.2) _⟩
  case isFalse => cases h

theorem callTo_onlyStores {target : Word} (h : s.callTo target = .ok t) : OnlyStores s t := by
  rw [callTo_eq] at h
  split at h
  case isTrue hb =>
    cases h
    exact ⟨rfl, .write (.write .refl (inBounds_iff.mp hb.1) _) (inBounds_iff.mp hb.2) _⟩
  case isFalse => cases h

theorem returnFrom_onlyStores (h : s.returnFrom = .ok t) : OnlyStores s t := by
  rw [returnFrom_eq] at h
  split at h
  · cases h
    exact .of_eq rfl rfl
  · cases h

theorem pop16_onlyStores (h : s.pop16 = .ok (v16, t)) : OnlyStores s t := by
  rw [pop16_eq] at h
  split at h
  · cases h
    exact .of_eq rfl rfl
  · cases h

theorem writeOperand_onlyStores {o : Operand} (h : s.writeOperand o v = .ok t) : OnlyStores s t := by
  cases o with
  | reg r =>
    cases h
    exact .of_eq (setReg_config s r v) (setReg_mem s r v)
  | m => exact writeByte_onlyStores h

theorem portRead_onlyStores {port : Byte} (h : s.portRead port = .ok (v, t)) : OnlyStores s t := by
  obtain ⟨-, ht⟩ := portRead_ok.mp h
  cases ht
  exact .of_eq rfl rfl

theorem portWrite_onlyStores {port : Byte} (h : s.portWrite port v = .ok t) : OnlyStores s t := by
  obtain ⟨-, rfl⟩ := portWrite_ok.mp h
  exact .of_eq rfl rfl

/-- Steps 1 and 2 of `Step()` store nothing. -/
theorem currentOpcode_onlyStores {op : Byte} (h : s.currentOpcode = .ok (op, t)) : OnlyStores s t := by
  rcases currentOpcode_ok h with ⟨-, -, rfl⟩ | ⟨-, -, rfl⟩
  · exact .of_eq rfl rfl
  · exact .of_eq rfl rfl

theorem load_onlyStores {bytes : List Byte} {start : Nat} (h : s.load bytes start = .ok t) : OnlyStores s t := by
  unfold load at h
  split at h
  case isTrue hlen =>
    cases h
    exact ⟨rfl, Memory.Written.refl.writeAll hlen⟩
  case isFalse => cases h

end State

/-! ### What an outcome can be -/

open State

/-- The outcome `o` gives a meaning (R7): a next state that differs from `s` in memory and configuration by stores inside
the capacity alone, or a fault. -/
inductive Answers (s : State) : Host.Outcome State Fault Refusal → Prop where
  | next {t : State} (h : OnlyStores s t) : Answers s (.next t)
  | fault (f : Fault) : Answers s (.fault f)

namespace Answers

variable {s t : State} {o : Host.Outcome State Fault Refusal}

theorem onlyStores (h : Answers s (.next t)) : OnlyStores s t := by
  cases h with
  | next h => exact h

theorem not_refused (h : Answers s o) (r : Refusal) : o ≠ .refused r := by
  cases h <;> simp

theorem after (hst : OnlyStores s t) (h : Answers t o) : Answers s o := by
  cases h with
  | next h => exact .next (hst.trans h)
  | fault f => exact .fault f

end Answers

/-- A computation that may fault answers `ok` exactly when both its parts do. -/
theorem bind_eq_ok {α β : Type} {x : Except Fault α} {f : α → Except Fault β} {b : β} :
    x >>= f = .ok b ↔ ∃ a, x = .ok a ∧ f a = .ok b := by
  cases x <;> simp [bind, Except.bind]

variable {s : State}

theorem answers_retire {n : Nat} {r : Except Fault State} (h : ∀ t, r = .ok t → OnlyStores s t) :
    Answers s (retire n r) := by
  cases r with
  | ok t => exact .next ((h t rfl).congr rfl rfl)
  | error f => exact .fault f

/-- An execute phase that cannot fault and leaves configuration and memory. -/
theorem answers_retire_ok {n : Nat} {t : State} (hc : t.config = s.config) (hm : t.mem = s.mem) :
    Answers s (retire n (.ok t)) :=
  .next (.of_eq hc hm)

/-- An execute phase of two parts, which completes when both do. -/
theorem answers_retire_bind {α : Type} {n : Nat} {x : Except Fault α} {f : α → Except Fault State}
    (h : ∀ a t, x = .ok a → f a = .ok t → OnlyStores s t) : Answers s (retire n (x >>= f)) :=
  answers_retire fun t ht => by
    obtain ⟨a, hx, hf⟩ := bind_eq_ok.mp ht
    exact h a t hx hf

/-- An execute phase that reads a value, which may fault, and leaves configuration and memory. -/
theorem answers_retire_read {α : Type} {n : Nat} {x : Except Fault α} {f : α → State}
    (hc : ∀ a, (f a).config = s.config) (hm : ∀ a, (f a).mem = s.mem) :
    Answers s (retire n (x >>= fun a => pure (f a))) :=
  answers_retire_bind fun a _ _ ht => by
    cases ht
    exact .of_eq (hc a) (hm a)

/-! ### The shapes of instruction -/

theorem updateOperand_answers (dst : Operand) (f : Byte → Flags → Byte × Flags) : Answers s (updateOperand dst s f) :=
  answers_retire_bind fun v _ _ ht => by
    obtain ⟨s1, hw, ht⟩ := bind_eq_ok.mp ht
    cases ht
    exact (writeOperand_onlyStores hw).congr rfl rfl

theorem jumpIf_answers (cond : Cond) (target : Word) : Answers s (jumpIf cond target s) := by
  unfold jumpIf
  split
  · exact answers_retire_ok rfl rfl
  · exact answers_retire_ok rfl rfl

theorem callIf_answers (cond : Cond) (target : Word) : Answers s (callIf cond target s) := by
  unfold callIf
  split
  · exact answers_retire fun _ => callTo_onlyStores
  · exact answers_retire_ok rfl rfl

theorem returnIf_answers (cond : Cond) : Answers s (returnIf cond s) := by
  unfold returnIf
  split
  · exact answers_retire fun _ => returnFrom_onlyStores
  · exact answers_retire_ok rfl rfl

/-! ### Instructions whose writes follow another access -/

theorem execMov_answers (dst src : Operand) : Answers s (execMov dst src s) :=
  answers_retire_bind fun _ _ _ => writeOperand_onlyStores

theorem execInp_answers (port : Byte) : Answers s (execInp port s) :=
  answers_retire_bind fun _ _ hread ht => by
    cases ht
    exact (portRead_onlyStores hread).congr rfl rfl

theorem execPop_answers (dst : StackReg) : Answers s (execPop dst s) :=
  answers_retire_bind fun _ _ hpop ht => by
    cases ht
    exact (pop16_onlyStores hpop).congr (by simp) (by simp)

theorem execXthl_answers : Answers s (execXthl s) :=
  answers_retire_bind fun _ _ _ ht => by
    obtain ⟨s1, hw, ht⟩ := bind_eq_ok.mp ht
    cases ht
    exact (writeWord_onlyStores hw).congr rfl rfl

/-! ### Every instruction, every Step, every schedule -/

/-- Every instruction has its meaning (R3, R7), and stores inside the capacity alone. -/
theorem exec_answers (i : Instr) (s : State) : Answers s (exec i s) := by
  cases i with
  -- data movement
  | mov dst src => exact execMov_answers dst src
  | mvi => exact answers_retire fun _ => writeOperand_onlyStores
  | lxi => exact answers_retire_ok (setWide_config ..) (setWide_mem ..)
  | stax | sta => exact answers_retire fun _ => writeByte_onlyStores
  | shld => exact answers_retire fun _ => writeWord_onlyStores
  | ldax | lhld | lda => exact answers_retire_read (fun _ => rfl) (fun _ => rfl)
  -- accumulator operations, on an operand, on an immediate byte and on A alone
  | add | adc | sub | sbb | ana | xra | ora | cmp =>
    exact answers_retire_read (fun _ => rfl) (fun _ => rfl)
  | adi | aci | sui | sbi | ani | xri | ori | cpi => exact answers_retire_ok rfl rfl
  | daa | cma | stc | cmc | rlc | rrc | ral | rar => exact answers_retire_ok rfl rfl
  -- increments and 16-bit arithmetic
  | inr dst | dcr dst => exact updateOperand_answers dst _
  | inx | dcx => exact answers_retire_ok (setWide_config ..) (setWide_mem ..)
  | dad => exact answers_retire_ok rfl rfl
  -- control transfer
  | jmp | pchl => exact answers_retire_ok rfl rfl
  | jnz | jz | jnc | jc | jpo | jpe | jp | jm => exact jumpIf_answers _ _
  | call | rst => exact answers_retire fun _ => callTo_onlyStores
  | cnz | cz | cnc | cc | cpo | cpe | cp | cm => exact callIf_answers _ _
  | ret => exact answers_retire fun _ => returnFrom_onlyStores
  | rnz | rz | rnc | rc | rpo | rpe | rp | rm => exact returnIf_answers _
  -- stack and exchange
  | push => exact answers_retire fun _ => push16_onlyStores
  | pop dst => exact execPop_answers dst
  | xthl => exact execXthl_answers
  | xchg | sphl => exact answers_retire_ok rfl rfl
  -- input/output and control
  | inp port => exact execInp_answers port
  | out => exact answers_retire fun _ => portWrite_onlyStores
  | ei | di | nop => exact answers_retire_ok rfl rfl
  | hlt | undefined => exact .fault _

/-- A Step answers what the dispatched instruction answers, or the fault of the fetch (R264). -/
theorem step_answers (s : State) : Answers s (step s) := by
  unfold step
  split
  next op t hop => exact (exec_answers _ t).after (currentOpcode_onlyStores hop)
  next f _ => exact .fault f

/-- A host action is a Step, a store of bytes that fit, or leaves memory and configuration (R269, R292, R293). -/
theorem hostAct_answers (s : State) (act : HostAction) : Answers s (hostAct s act) := by
  cases act with
  | step => exact step_answers s
  | load bytes start =>
    simp only [hostAct]
    split
    next t hload => exact .next (load_onlyStores hload)
    next => exact .next (.of_eq rfl rfl)
  | requestInterrupt | setRegisters | answerPort => exact .next (.of_eq rfl rfl)

theorem drive_answers (acts : List HostAction) (s : State) : Answers s (drive s acts) := by
  induction acts generalizing s with
  | nil => exact .next (.of_eq rfl rfl)
  | cons act rest ih =>
    have hact := hostAct_answers s act
    simp only [drive]
    split
    next t hnext => exact (ih t).after (hnext ▸ hact).onlyStores
    next f _ => exact .fault f
    next r href => exact absurd href (hact.not_refused r)

end Sys2Proof.Machine

namespace Sys2Proof.Claims

open Sys2Proof.Machine

/-- Settles O16: a schedule that ends in a next state has stored inside the capacity alone, which keeps the invariant. -/
theorem invariantIsKeptByEveryHostSchedule : Obligations.InvariantIsKeptByEveryHostSchedule := by
  intro acts s t hs ht
  have hanswer := drive_answers acts s
  rw [ht] at hanswer
  exact hanswer.onlyStores.inv hs

/-- Settles O14: an instruction and a Step answer a next state or a fault. -/
theorem nothingIsRefused : Obligations.NothingIsRefused :=
  ⟨fun i s => (exec_answers i s).not_refused, fun s => (step_answers s).not_refused⟩

end Sys2Proof.Claims
end

section
/-! PROOFS. The state family (O15, O9, O10, O18, O19, O20, O21, O22, O26, O53, O17), in four layers.

The decoder keeps the opcode byte, so a byte that is not DI's never dispatches DI. `exec_mapControl` says that an execute
phase commutes with any change of the latches, INTE and the slot, EI and DI apart: it neither reads nor writes them.
`exec_framed` says once for every instruction what it may do to SP, PC, memory and the flags. And a pop reads back what a
push stored. The obligations are read off these and off `step_answers`. -/

namespace Sys2Proof

/-! ### The decoder keeps the opcode byte (R61 to R72) -/

theorem operandCode_decodeOperand (code : BitVec 3) : operandCode (decodeOperand code) = code := by
  unfold decodeOperand
  split <;> rfl

theorem opcodeOf_decodeGroup00 (mid low : BitVec 3) (z w : Byte) :
    opcodeOf (decodeGroup00 mid low z w) = 0b00#2 ++ mid ++ low := by
  unfold decodeGroup00
  split
  · unfold decodeNopColumn; split <;> rfl
  · unfold decodeLxiColumn; split <;> rfl
  · unfold decodeStoreColumn; split <;> rfl
  · unfold decodeInxColumn; split <;> rfl
  · rw [opcodeOf, operandCode_decodeOperand]
  · rw [opcodeOf, operandCode_decodeOperand]
  · rw [opcodeOf, operandCode_decodeOperand]
  · unfold decodeAccumulatorColumn; split <;> rfl

theorem opcodeOf_decodeGroup01 (dst src : Operand) :
    opcodeOf (decodeGroup01 dst src) = 0b01#2 ++ operandCode dst ++ operandCode src := by
  unfold decodeGroup01
  split <;> rfl

theorem opcodeOf_decodeGroup10 (src : Operand) (mid : BitVec 3) :
    opcodeOf (decodeGroup10 src mid) = 0b10#2 ++ mid ++ operandCode src := by
  unfold decodeGroup10
  split <;> rfl

theorem opcodeOf_decodeGroup11 (mid low : BitVec 3) (z w : Byte) :
    opcodeOf (decodeGroup11 mid low z w) = 0b11#2 ++ mid ++ low := by
  unfold decodeGroup11
  split
  · unfold decodeReturnColumn; split <;> rfl
  · unfold decodePopColumn; split <;> rfl
  · unfold decodeJumpColumn; split <;> rfl
  · unfold decodeControlColumn; split <;> rfl
  · unfold decodeCallColumn; split <;> rfl
  · unfold decodePushColumn; split <;> rfl
  · unfold decodeImmediateColumn; split <;> rfl
  · rfl

theorem fields_append (op : Byte) : groupField op ++ midField op ++ lowField op = op := by
  revert op
  decide

/-- An instruction decoded from the byte `op` is encoded with the byte `op`, whatever the latches hold. -/
theorem opcodeOf_decodeInstr (op z w : Byte) : opcodeOf (decodeInstr op z w) = op := by
  refine Eq.trans ?_ (fields_append op)
  unfold decodeInstr
  split
  next hgroup => rw [hgroup, opcodeOf_decodeGroup00]
  next hgroup => rw [hgroup, opcodeOf_decodeGroup01, operandCode_decodeOperand, operandCode_decodeOperand]
  next hgroup => rw [hgroup, opcodeOf_decodeGroup10, operandCode_decodeOperand]
  next hgroup => rw [hgroup, opcodeOf_decodeGroup11]

end Sys2Proof

namespace Sys2Proof.Machine

/-! ### Computations that commute with a change of the answer -/

/-- Two answers under the same guard, one being the other changed by `φ`. -/
theorem guarded_map {α β : Type} {P : Prop} [Decidable P] {φ : α → β} {x : α} {y : β} {e : Fault} (h : y = φ x) :
    (if P then Except.ok y else .error e) = (if P then Except.ok x else .error e).map φ := by
  subst h
  split <;> rfl

theorem bind_commutes {α γ : Type} {ψ : γ → γ} {x : Except Fault α} {k k' : α → Except Fault γ}
    (h : ∀ a, k' a = (k a).map ψ) : x >>= k' = (x >>= k).map ψ := by
  cases x with
  | ok a => exact h a
  | error e => rfl

theorem map_bind_commutes {α β γ : Type} {φ : α → β} {ψ : γ → γ} {x : Except Fault α} {k : α → Except Fault γ}
    {k' : β → Except Fault γ} (h : ∀ a, k' (φ a) = (k a).map ψ) : x.map φ >>= k' = (x >>= k).map ψ := by
  cases x with
  | ok a => exact h a
  | error e => rfl

/-! ### The part of the state that execute rules do not look at -/

namespace State

/-- What no execute rule reads, and none but EI and DI writes: the latches (R11), INTE (R26) and the pending slot (R27). -/
structure Control where
  w : Byte
  z : Byte
  inte : Bool
  pending : Option Byte

def control (s : State) : Control := ⟨s.w, s.z, s.inte, s.pending⟩

/-- `s` with its latches, INTE and slot changed by `f` and all else as it was. -/
def mapControl (f : Control → Control) (s : State) : State :=
  { s with w := (f s.control).w, z := (f s.control).z, inte := (f s.control).inte, pending := (f s.control).pending }

variable (f : Control → Control) (s : State)

theorem mapControl_flags : (s.mapControl f).flags = s.flags := rfl

theorem setReg_mapControl (r : Reg) (v : Byte) : (s.mapControl f).setReg r v = (s.setReg r v).mapControl f := by
  cases r <;> rfl

theorem setStackReg_mapControl (x : StackReg) (v : Word) :
    (s.mapControl f).setStackReg x v = (s.setStackReg x v).mapControl f := by
  rcases x with (_ | _ | _) | _ <;> rfl

/-- INTE can be written before or after a change that keeps what is written to it. -/
theorem setInte_mapControl {b : Bool} (h : f { s.control with inte := b } = { f s.control with inte := b }) :
    (s.mapControl f).setInte b = (s.setInte b).mapControl f := by
  rw [mapControl, mapControl, show (s.setInte b).control = { s.control with inte := b } from rfl, h]
  rfl

theorem readOperand_mapControl (o : Operand) : (s.mapControl f).readOperand o = s.readOperand o := by
  rcases o with (_ | _ | _ | _ | _ | _ | _) | _ <;> rfl

theorem writeByte_mapControl (a : Word) (v : Byte) :
    (s.mapControl f).writeByte a v = (s.writeByte a v).map (mapControl f) :=
  guarded_map rfl

theorem writeOperand_mapControl (o : Operand) (v : Byte) :
    (s.mapControl f).writeOperand o v = (s.writeOperand o v).map (mapControl f) := by
  cases o with
  | reg r => exact congrArg Except.ok (setReg_mapControl f s r v)
  | m => exact writeByte_mapControl f s s.hl v

theorem writeWord_mapControl (a v : Word) :
    (s.mapControl f).writeWord a v = (s.writeWord a v).map (mapControl f) := by
  rw [writeWord_eq, writeWord_eq]
  exact guarded_map rfl

theorem push16_mapControl (v : Word) : (s.mapControl f).push16 v = (s.push16 v).map (mapControl f) := by
  rw [push16_eq, push16_eq]
  exact guarded_map rfl

theorem pop16_mapControl : (s.mapControl f).pop16 = s.pop16.map (Prod.map id (mapControl f)) := by
  rw [pop16_eq, pop16_eq]
  exact guarded_map rfl

theorem callTo_mapControl (target : Word) :
    (s.mapControl f).callTo target = (s.callTo target).map (mapControl f) := by
  rw [callTo_eq, callTo_eq]
  exact guarded_map rfl

theorem returnFrom_mapControl : (s.mapControl f).returnFrom = s.returnFrom.map (mapControl f) := by
  rw [returnFrom_eq, returnFrom_eq]
  exact guarded_map rfl

theorem portRead_mapControl (port : Byte) :
    (s.mapControl f).portRead port = (s.portRead port).map (Prod.map id (mapControl f)) :=
  guarded_map rfl

theorem portWrite_mapControl (port v : Byte) :
    (s.mapControl f).portWrite port v = (s.portWrite port v).map (mapControl f) :=
  guarded_map rfl

end State

open State Sys2Proof.Claims

section

variable {f : Control → Control} {s : State}

theorem retire_mapControl {n : Nat} {r r' : Except Fault State} (h : r' = r.map (mapControl f)) :
    retire n r' = mapNext (mapControl f) (retire n r) := by
  subst h
  cases r <;> rfl

theorem withOperand_mapControl {src : Operand} {k k' : Byte → State} (h : ∀ v, k' v = (k v).mapControl f) :
    withOperand src (s.mapControl f) k' = mapNext (mapControl f) (withOperand src s k) := by
  refine retire_mapControl ?_
  rw [readOperand_mapControl]
  exact bind_commutes fun v => congrArg Except.ok (h v)

theorem updateOperand_mapControl (dst : Operand) (k : Byte → Flags → Byte × Flags) :
    updateOperand dst (s.mapControl f) k = mapNext (mapControl f) (updateOperand dst s k) := by
  refine retire_mapControl ?_
  rw [readOperand_mapControl]
  refine bind_commutes fun v => ?_
  rw [writeOperand_mapControl]
  exact map_bind_commutes fun _ => rfl

theorem jumpIf_mapControl (cond : Cond) (target : Word) :
    jumpIf cond target (s.mapControl f) = mapNext (mapControl f) (jumpIf cond target s) := by
  rw [jumpIf, jumpIf, mapControl_flags]
  split <;> rfl

theorem callIf_mapControl (cond : Cond) (target : Word) :
    callIf cond target (s.mapControl f) = mapNext (mapControl f) (callIf cond target s) := by
  rw [callIf, callIf, mapControl_flags]
  split
  · exact retire_mapControl (callTo_mapControl ..)
  · rfl

theorem returnIf_mapControl (cond : Cond) :
    returnIf cond (s.mapControl f) = mapNext (mapControl f) (returnIf cond s) := by
  rw [returnIf, returnIf, mapControl_flags]
  split
  · exact retire_mapControl (returnFrom_mapControl ..)
  · rfl

theorem execMov_mapControl (dst src : Operand) :
    execMov dst src (s.mapControl f) = mapNext (mapControl f) (execMov dst src s) := by
  refine retire_mapControl ?_
  rw [readOperand_mapControl]
  exact bind_commutes fun v => writeOperand_mapControl f s dst v

theorem execPop_mapControl (dst : StackReg) :
    execPop dst (s.mapControl f) = mapNext (mapControl f) (execPop dst s) := by
  refine retire_mapControl ?_
  rw [pop16_mapControl]
  exact map_bind_commutes fun ⟨v, u⟩ => congrArg Except.ok (setStackReg_mapControl f u dst v)

theorem execXthl_mapControl : execXthl (s.mapControl f) = mapNext (mapControl f) (execXthl s) := by
  refine retire_mapControl (bind_commutes fun v => ?_)
  rw [writeWord_mapControl]
  exact map_bind_commutes fun _ => rfl

theorem execInp_mapControl (port : Byte) :
    execInp port (s.mapControl f) = mapNext (mapControl f) (execInp port s) := by
  refine retire_mapControl ?_
  rw [portRead_mapControl]
  exact map_bind_commutes fun _ => rfl

/-- Executing commutes with any change of latches, INTE and slot; for EI and DI the change must keep what they write. -/
theorem exec_mapControl (i : Instr) (s : State)
    (hf : i = .ei ∨ i = .di → ∀ c b, f { c with inte := b } = { f c with inte := b }) :
    exec i (s.mapControl f) = mapNext (mapControl f) (exec i s) := by
  cases i with
  -- data movement
  | mov => exact execMov_mapControl ..
  | mvi => exact retire_mapControl (writeOperand_mapControl ..)
  | stax p => cases p <;> exact retire_mapControl (writeByte_mapControl ..)
  | sta => exact retire_mapControl (writeByte_mapControl ..)
  | shld => exact retire_mapControl (writeWord_mapControl ..)
  | ldax p => cases p <;> exact retire_mapControl (bind_commutes fun _ => rfl)
  | lhld | lda => exact retire_mapControl (bind_commutes fun _ => rfl)
  -- 16-bit registers
  | lxi x _ | inx x | dcx x | dad x => rcases x with (_ | _ | _) | _ <;> rfl
  -- accumulator operations and increments
  | add | adc | sub | sbb | ana | xra | ora | cmp => exact withOperand_mapControl fun _ => rfl
  | adi | aci | sui | sbi | ani | xri | ori | cpi => rfl
  | daa | cma | stc | cmc | rlc | rrc | ral | rar => rfl
  | inr | dcr => exact updateOperand_mapControl ..
  -- control transfer
  | jmp | pchl => rfl
  | jnz | jz | jnc | jc | jpo | jpe | jp | jm => exact jumpIf_mapControl ..
  | call | rst => exact retire_mapControl (callTo_mapControl ..)
  | cnz | cz | cnc | cc | cpo | cpe | cp | cm => exact callIf_mapControl ..
  | ret => exact retire_mapControl (returnFrom_mapControl ..)
  | rnz | rz | rnc | rc | rpo | rpe | rp | rm => exact returnIf_mapControl ..
  -- stack and exchange
  | push x => rcases x with (_ | _ | _) | _ <;> exact retire_mapControl (push16_mapControl ..)
  | pop => exact execPop_mapControl ..
  | xthl => exact execXthl_mapControl
  | xchg | sphl => rfl
  -- input/output and control
  | inp => exact execInp_mapControl ..
  | out => exact retire_mapControl (portWrite_mapControl ..)
  | ei => rw [exec, execEi, setInte_mapControl _ _ (hf (.inl rfl) _ _)]; rfl
  | di => rw [exec, execDi, setInte_mapControl _ _ (hf (.inr rfl) _ _)]; rfl
  | nop | hlt | undefined => rfl

variable {i : Instr} {t : State}

/-- A change that leaves the state before an instruction leaves the one after it. -/
theorem exec_keeps_control (hf : i = .ei ∨ i = .di → ∀ c b, f { c with inte := b } = { f c with inte := b })
    (hs : f s.control = s.control) (h : exec i s = .next t) : f t.control = t.control := by
  have hcomm := exec_mapControl i s hf
  have hself : s.mapControl f = s := by rw [mapControl, hs]; rfl
  rw [hself, h] at hcomm
  exact congrArg control (Host.Outcome.next.inj hcomm).symm

/-- No instruction writes the latches or the slot (R11, R27). -/
theorem exec_control (h : exec i s = .next t) : t.control = { s.control with inte := t.inte } :=
  (exec_keeps_control (f := fun c => { s.control with inte := c.inte }) (fun _ _ _ => rfl) rfl h).symm

/-- No instruction but EI and DI writes INTE (R26). -/
theorem exec_inte (hei : i ≠ .ei) (hdi : i ≠ .di) (h : exec i s = .next t) : t.inte = s.inte :=
  congrArg Control.inte
    (exec_keeps_control (f := fun _ => s.control) (fun hi => absurd hi (by simp [hei, hdi])) rfl h).symm

/-- A Step that completes is the completed execution of the dispatched instruction (R264). -/
theorem step_next (h : step s = .next t) :
    ∃ op u, s.currentOpcode = .ok (op, u) ∧ exec (decodeInstr op u.z u.w) u = .next t := by
  unfold step at h
  split at h
  next op u hop => exact ⟨op, u, hop, h⟩
  next => cases h

end

/-! ### What an instruction may do to SP, PC, memory and flags -/

/-- The flags `g` are `f` but for those that `w` lets an instruction write: Sign, Zero, AuxCarry and Parity by the first part,
Carry by the second (R25). -/
structure FlagsKept (w : Bool × Bool) (f g : Flags) : Prop where
  szap : w.1 = false → g.sign = f.sign ∧ g.zero = f.zero ∧ g.auxCarry = f.auxCarry ∧ g.parity = f.parity
  carry : w.2 = false → g.carry = f.carry

namespace FlagsKept

variable {f g : Flags}

theorem of_eq {w : Bool × Bool} (h : g = f) : FlagsKept w f g := h ▸ ⟨fun _ => ⟨rfl, rfl, rfl, rfl⟩, fun _ => rfl⟩

theorem all : FlagsKept (true, true) f g := ⟨nofun, nofun⟩

theorem allButCarry (h : g.carry = f.carry) : FlagsKept (true, false) f g := ⟨nofun, fun _ => h⟩

theorem carryOnly (c : Bool) : FlagsKept (false, true) f { f with carry := c } := ⟨fun _ => ⟨rfl, rfl, rfl, rfl⟩, nofun⟩

end FlagsKept

/-- What completing `i` from `s` may do to SP, PC, memory and flags, by the rules R16, R17, R25 and R31. -/
structure Frame (i : Instr) (s t : State) : Prop where
  sp : t.sp = spAfter s i
  pc : transfersControl i = false → t.pc = s.pc
  mem : storesToMemory i = false → t.mem = s.mem
  flags : FlagsKept (writesFlags i) s.flags t.flags

/-- A next state that `o` answers is within the frame of `i`. -/
def Framed (i : Instr) (s : State) (o : Host.Outcome State Fault Refusal) : Prop := ∀ t, o = .next t → Frame i s t

variable {i : Instr} {s t : State} {v : Byte}

/-- An instruction that leaves PC and memory, whatever the tables let it do. -/
theorem Frame.quiet (hsp : t.sp = spAfter s i) (hpc : t.pc = s.pc) (hmem : t.mem = s.mem)
    (hflags : FlagsKept (writesFlags i) s.flags t.flags) : Frame i s t :=
  ⟨hsp, fun _ => hpc, fun _ => hmem, hflags⟩

theorem framed_fault (f : Fault) : Framed i s (.fault f) := fun _ h => by cases h

theorem framed_retire {n : Nat} {r : Except Fault State} (h : ∀ u, r = .ok u → Frame i s u) : Framed i s (retire n r) :=
  fun _ ht => by
    obtain ⟨u, hu, rfl⟩ := retire_next.mp ht
    obtain ⟨hsp, hpc, hmem, hflags⟩ := h u hu
    exact ⟨hsp, hpc, hmem, hflags⟩

theorem framed_retire_ok {n : Nat} {u : State} (h : Frame i s u) : Framed i s (retire n (.ok u)) :=
  framed_retire fun _ hu => by
    cases hu
    exact h

theorem framed_retire_bind {α : Type} {n : Nat} {x : Except Fault α} {k : α → Except Fault State}
    (h : ∀ a u, x = .ok a → k a = .ok u → Frame i s u) : Framed i s (retire n (x >>= k)) :=
  framed_retire fun u hu => by
    obtain ⟨a, hx, hk⟩ := bind_eq_ok.mp hu
    exact h a u hx hk

theorem framed_retire_read {α : Type} {n : Nat} {x : Except Fault α} {k : α → State} (h : ∀ a, Frame i s (k a)) :
    Framed i s (retire n (x >>= fun a => pure (k a))) :=
  framed_retire_bind fun a _ _ hu => by
    cases hu
    exact h a

theorem writeByte_frame {a : Word} (h : s.writeByte a v = .ok t) : t.sp = s.sp ∧ t.pc = s.pc ∧ t.flags = s.flags := by
  obtain ⟨-, rfl⟩ := writeByte_ok.mp h
  exact ⟨rfl, rfl, rfl⟩

/-- Writing an operand touches memory only when the operand is M (R62). -/
theorem writeOperand_frame {o : Operand} (h : s.writeOperand o v = .ok t) :
    t.sp = s.sp ∧ t.pc = s.pc ∧ ((o == .m) = false → t.mem = s.mem) ∧ t.flags = s.flags := by
  rcases writeOperand_ok h with ⟨r, rfl, rfl⟩ | ⟨rfl, -, rfl⟩
  · simp
  · exact ⟨rfl, rfl, nofun, rfl⟩

theorem callTo_frame {target : Word} (hsp : spAfter s i = s.sp - 2) (htransfer : transfersControl i = true)
    (hstore : storesToMemory i = true) (h : s.callTo target = .ok t) : Frame i s t := by
  rw [callTo_eq] at h
  split at h
  · cases h
    exact ⟨hsp.symm, by simp [htransfer], by simp [hstore], .of_eq rfl⟩
  · cases h

theorem returnFrom_frame (hsp : spAfter s i = s.sp + 2) (htransfer : transfersControl i = true)
    (h : s.returnFrom = .ok t) : Frame i s t := by
  rw [returnFrom_eq] at h
  split at h
  · cases h
    exact ⟨hsp.symm, by simp [htransfer], fun _ => rfl, .of_eq rfl⟩
  · cases h

theorem jumpIf_framed {cond : Cond} {target : Word} (hsp : spAfter s i = s.sp) (htransfer : transfersControl i = true) :
    Framed i s (jumpIf cond target s) := by
  refine framed_retire_ok ?_
  split
  · exact ⟨hsp.symm, by simp [htransfer], fun _ => rfl, .of_eq rfl⟩
  · exact .quiet hsp.symm rfl rfl (.of_eq rfl)

theorem callIf_framed {cond : Cond} {target : Word}
    (hsp : spAfter s i = if condHolds s.flags cond then s.sp - 2 else s.sp) (htransfer : transfersControl i = true)
    (hstore : storesToMemory i = true) : Framed i s (callIf cond target s) := by
  unfold callIf
  split
  next hc => exact framed_retire fun _ => callTo_frame (hsp.trans (if_pos hc)) htransfer hstore
  next hc => exact framed_retire_ok (.quiet (hsp.trans (if_neg hc)).symm rfl rfl (.of_eq rfl))

theorem returnIf_framed {cond : Cond} (hsp : spAfter s i = if condHolds s.flags cond then s.sp + 2 else s.sp)
    (htransfer : transfersControl i = true) : Framed i s (returnIf cond s) := by
  unfold returnIf
  split
  next hc => exact framed_retire fun _ => returnFrom_frame (hsp.trans (if_pos hc)) htransfer
  next hc => exact framed_retire_ok (.quiet (hsp.trans (if_neg hc)).symm rfl rfl (.of_eq rfl))

theorem updateOperand_framed {dst : Operand} {k : Byte → Flags → Byte × Flags} (hsp : spAfter s i = s.sp)
    (hstore : storesToMemory i = (dst == .m)) (hflags : writesFlags i = (true, false))
    (hcarry : ∀ v f, (k v f).2.carry = f.carry) : Framed i s (updateOperand dst s k) :=
  framed_retire_bind fun v _ _ ht => by
    obtain ⟨u, hw, ht⟩ := bind_eq_ok.mp ht
    cases ht
    obtain ⟨hu, hpc, hmem, -⟩ := writeOperand_frame hw
    exact ⟨hu.trans hsp.symm, fun _ => hpc, fun hi => hmem (hstore ▸ hi), hflags ▸ .allButCarry (hcarry v s.flags)⟩

theorem execPush_framed (src : StackReg) : Framed (.push src) s (execPush src s) := by
  refine framed_retire fun _ hw => ?_
  rw [push16_eq] at hw
  split at hw
  · cases hw
    exact ⟨rfl, fun _ => rfl, nofun, .of_eq rfl⟩
  · cases hw

/-- POP writes flags only where its operand is PSW (R223). -/
theorem execPop_framed (dst : StackReg) : Framed (.pop dst) s (execPop dst s) := by
  refine framed_retire_bind fun _ _ hr hw => ?_
  rw [pop16_eq] at hr
  split at hr
  · cases hr
    cases hw
    cases dst with
    | pair p => exact .quiet (setPair_sp ..) (setPair_pc ..) (setPair_mem ..) (.of_eq (setPair_flags ..))
    | psw => exact .quiet rfl rfl rfl .all
  · cases hr

theorem execXthl_framed : Framed .xthl s (execXthl s) := by
  refine framed_retire_bind fun _ _ _ ht => ?_
  obtain ⟨u, hw, ht⟩ := bind_eq_ok.mp ht
  obtain ⟨-, -, rfl⟩ := writeWord_ok.mp hw
  cases ht
  exact ⟨rfl, fun _ => rfl, nofun, .of_eq rfl⟩

theorem execInp_framed (port : Byte) : Framed (.inp port) s (execInp port s) := by
  refine framed_retire_bind fun _ _ hr hw => ?_
  obtain ⟨-, rfl⟩ := portRead_ok.mp hr
  cases hw
  exact .quiet rfl rfl rfl (.of_eq rfl)

theorem toNat_hl (s : State) : s.hl.toNat = hlNat s := toNat_joinBytes ..

theorem ofNat_hlNat (s : State) : BitVec.ofNat 16 (hlNat s) = s.hl := by
  rw [← toNat_hl, BitVec.ofNat_toNat, BitVec.setWidth_eq]

/-- Every instruction stays within its frame. -/
theorem exec_framed (i : Instr) (s : State) : Framed i s (exec i s) := by
  cases i with
  -- data movement
  | mov =>
    exact framed_retire_bind fun _ _ _ hw =>
      have ⟨hsp, hpc, hmem, hflags⟩ := writeOperand_frame hw
      ⟨hsp, fun _ => hpc, hmem, .of_eq hflags⟩
  | mvi =>
    exact framed_retire fun _ hw =>
      have ⟨hsp, hpc, hmem, hflags⟩ := writeOperand_frame hw
      ⟨hsp, fun _ => hpc, hmem, .of_eq hflags⟩
  | stax | sta =>
    exact framed_retire fun _ hw =>
      have ⟨hsp, hpc, hflags⟩ := writeByte_frame hw
      ⟨hsp, fun _ => hpc, nofun, .of_eq hflags⟩
  | shld =>
    refine framed_retire fun _ hw => ?_
    obtain ⟨-, -, rfl⟩ := writeWord_ok.mp hw
    exact ⟨rfl, fun _ => rfl, nofun, .of_eq rfl⟩
  | ldax | lhld | lda => exact framed_retire_read fun _ => .quiet rfl rfl rfl (.of_eq rfl)
  -- 16-bit registers
  | lxi x | inx x | dcx x =>
    rcases x with (_ | _ | _) | _ <;> exact framed_retire_ok (.quiet rfl rfl rfl (.of_eq rfl))
  -- operations that write all five flags, all but Carry, or Carry alone
  | add | adc | sub | sbb | ana | xra | ora | cmp => exact framed_retire_read fun _ => .quiet rfl rfl rfl .all
  | adi | aci | sui | sbi | ani | xri | ori | cpi | daa => exact framed_retire_ok (.quiet rfl rfl rfl .all)
  | inr | dcr => exact updateOperand_framed rfl rfl rfl fun _ _ => rfl
  | dad | stc | cmc | rlc | rrc | ral | rar => exact framed_retire_ok (.quiet rfl rfl rfl (.carryOnly _))
  -- control transfer
  | jmp | pchl => exact framed_retire_ok ⟨rfl, nofun, fun _ => rfl, .of_eq rfl⟩
  | jnz | jz | jnc | jc | jpo | jpe | jp | jm => exact jumpIf_framed rfl rfl
  | call | rst => exact framed_retire fun _ => callTo_frame rfl rfl rfl
  | cnz | cz | cnc | cc | cpo | cpe | cp | cm =>
    exact callIf_framed (by simp only [spAfter, condHolds, Bool.not_eq_true'] <;> rfl) rfl rfl
  | ret => exact framed_retire fun _ => returnFrom_frame rfl rfl
  | rnz | rz | rnc | rc | rpo | rpe | rp | rm =>
    exact returnIf_framed (by simp only [spAfter, condHolds, Bool.not_eq_true'] <;> rfl) rfl
  -- stack and exchange
  | push src => exact execPush_framed src
  | pop dst => exact execPop_framed dst
  | xthl => exact execXthl_framed
  | sphl => exact framed_retire_ok (.quiet (ofNat_hlNat s).symm rfl rfl (.of_eq rfl))
  -- input/output and control
  | inp port => exact execInp_framed port
  | out =>
    refine framed_retire fun _ hw => ?_
    obtain ⟨-, rfl⟩ := portWrite_ok.mp hw
    exact .quiet rfl rfl rfl (.of_eq rfl)
  | xchg | cma | ei | di | nop => exact framed_retire_ok (.quiet rfl rfl rfl (.of_eq rfl))
  | hlt | undefined => exact framed_fault _

/-! ### A pop reads back what a push stored -/

/-- Loading the packed Flags byte gives the flags it was packed from (R20, R23). -/
theorem unpackFlags_packFlags (f : Flags) : unpackFlags (packFlags f) = f := by
  obtain ⟨sign, zero, auxCarry, parity, carry⟩ := f
  revert sign zero auxCarry parity carry
  decide

/-- Bits 1, 3 and 5 of the packed Flags byte (R19). -/
theorem packFlags_fixedBits (f : Flags) : (packFlags f).toNat.testBit 1 = true ∧
    (packFlags f).toNat.testBit 3 = false ∧ (packFlags f).toNat.testBit 5 = false := by
  obtain ⟨sign, zero, auxCarry, parity, carry⟩ := f
  revert sign zero auxCarry parity carry
  decide

namespace State

theorem getPair_setPair (s : State) (p : Pair) (v : Word) : (s.setPair p v).getPair p = v := by
  rw [getPair, getReg_setPair, getReg_setPair]
  cases p <;> exact joinBytes_hi_lo v

/-- Writing back what a stack operand holds changes nothing (R220 to R223). -/
theorem setStackReg_getStackReg {s u : State} (x : StackReg) (hregs : u.regs = s.regs) (hflags : u.flags = s.flags) :
    u.setStackReg x (s.getStackReg x) = u := by
  cases x with
  | pair p =>
    cases p <;> simp [setStackReg, setPair, setReg, getStackReg, getPair, getReg, pairHigh, pairLow, ← hregs]
  | psw => simp [setStackReg, setPsw, setReg, setFlags, getStackReg, psw, unpackFlags_packFlags, ← hregs, ← hflags]

theorem toNat_sp_sub_one (s : State) : (s.sp - 1).toNat = pushHighAddress s := by
  rw [pushHighAddress]
  bv_omega

theorem toNat_sp_sub_two (s : State) : (s.sp - 2).toNat = pushLowAddress s := by
  rw [pushLowAddress]
  bv_omega

theorem pushable_iff (s : State) : Pushable s ↔ s.inBounds (s.sp - 1) ∧ s.inBounds (s.sp - 2) := by
  rw [Pushable, InMemory, InMemory, inBounds_iff, inBounds_iff, toNat_sp_sub_one, toNat_sp_sub_two]

/-- From memory and SP as a push of `v` left them a pop answers `v` and gives SP back (R181, R182). -/
theorem pop16_of_pushed {s u : State} {v : Word} (hwf : s.mem.wf) (hpush : Pushable s) (hmem : u.mem = s.pushedMem v)
    (hsp : u.sp = s.sp - 2) (hconfig : u.config = s.config) : u.pop16 = .ok (v, u.setSp s.sp) := by
  have hnext : s.sp - 2 + 1 = s.sp - 1 := by bv_omega
  have hback : s.sp - 2 + 2 = s.sp := by bv_omega
  have hne : (s.sp - 1).toNat ≠ (s.sp - 2).toNat := by bv_omega
  have hlow : u.byteAt (s.sp - 2) = loByte v := by
    rw [byteAt, hmem, pushedMem, Memory.read_write (Memory.write_wf hwf ..).1, if_pos rfl]
  have hhigh : u.byteAt (s.sp - 1) = hiByte v := by
    rw [byteAt, hmem, pushedMem, Memory.read_write (Memory.write_wf hwf ..).1, if_neg hne, Memory.read_write hwf.1,
      if_pos rfl]
  have hbounds (a : Word) : u.inBounds a = s.inBounds a := by rw [inBounds, inBounds, hconfig]
  obtain ⟨hin1, hin2⟩ := (pushable_iff s).mp hpush
  rw [pop16_eq, hsp, hnext, hback, hbounds, hbounds, if_pos ⟨hin2, hin1⟩, hlow, hhigh, joinBytes_hi_lo]

end State

theorem exec_push (x : StackReg) (hpush : Pushable s) : exec (.push x) s =
    .next (((s.setMem (s.pushedMem (s.getStackReg x))).setSp (s.sp - 2)).setCycles 11) := by
  rw [exec, execPush, push16_eq, if_pos ((pushable_iff s).mp hpush)]
  rfl

/-- From a state that differs from `s` as a push of `x` does, popping `x` gives SP back and writes nothing else. -/
theorem exec_pop_of_pushed {u : State} (x : StackReg) (hwf : s.mem.wf) (hpush : Pushable s)
    (hmem : u.mem = s.pushedMem (s.getStackReg x)) (hsp : u.sp = s.sp - 2) (hconfig : u.config = s.config)
    (hregs : u.regs = s.regs) (hflags : u.flags = s.flags) : exec (.pop x) u = .next ((u.setSp s.sp).setCycles 10) := by
  rw [exec, execPop, pop16_of_pushed hwf hpush hmem hsp hconfig]
  change retire 10 (.ok ((u.setSp s.sp).setStackReg x (s.getStackReg x))) = _
  rw [setStackReg_getStackReg (u := u.setSp s.sp) x hregs hflags]
  rfl

theorem execAll_cons {rest : List Instr} (h : exec i s = .next t) : execAll (i :: rest) s = execAll rest t := by
  rw [execAll, h]

end Sys2Proof.Machine

namespace Sys2Proof.Claims

open Sys2Proof.Machine

/-- Settles O15: a Step that ends in a next state has stored inside the capacity alone, which keeps the invariant. -/
theorem invariantIsKeptByEveryStep : Obligations.InvariantIsKeptByEveryStep :=
  fun s _ hs h => (h ▸ step_answers s).onlyStores.inv hs

/-- Settles O9: acceptance empties the slot, the fetch leaves it, and executing commutes with a change of it. -/
theorem pendingSlotIsEmptiedOnlyByAcceptance : Obligations.PendingSlotIsEmptiedOnlyByAcceptance := by
  refine ⟨fun s t h => ?_, fun i s p => ?_, fun _ _ => rfl⟩
  · obtain ⟨op, u, hop, hexec⟩ := step_next h
    have hkept : t.pending = u.pending := congrArg State.Control.pending (exec_control hexec)
    rcases State.currentOpcode_ok hop with ⟨hinte, -, rfl⟩ | ⟨hmasked, -, rfl⟩
    · rw [hkept, if_pos hinte]
      rfl
    · rcases hmasked with hinte | hnone
      · rw [hkept, if_neg (by simp [hinte])]
        rfl
      · simp [hkept, hnone]
  · exact exec_mapControl i s (f := fun c => { c with pending := p }) (fun _ _ _ => rfl)

/-- Settles O10: EI and DI by their rules; every other instruction commutes with a change of INTE; and an accepted byte other
than DI's does not dispatch DI, since the decoder keeps the opcode byte. -/
theorem onlyEiAndDiTouchInte : Obligations.OnlyEiAndDiTouchInte := by
  refine ⟨fun i s t h => ?_, fun i s b hei hdi => ?_, fun _ _ => ⟨rfl, rfl⟩, fun s t hinte hp hv h => ?_⟩
  · split
    · cases h
      rfl
    · cases h
      rfl
    · exact exec_inte ‹_› ‹_› h
  · exact exec_mapControl i s (f := fun c => { c with inte := b }) (fun hi => absurd hi (by simp [hei, hdi]))
  · obtain ⟨op, u, hop, hexec⟩ := step_next h
    rcases State.currentOpcode_ok hop with ⟨-, hpending, rfl⟩ | ⟨hmasked, -⟩
    · have hdi : decodeInstr op s.z s.w ≠ .di := fun hdi => by
        have hcode := opcodeOf_decodeInstr op s.z s.w
        rw [hdi] at hcode
        exact hv (hpending.trans (congrArg some hcode.symm))
      by_cases hei : decodeInstr op s.z s.w = .ei
      · rw [State.setPending_z, State.setPending_w, hei] at hexec
        cases hexec
        rfl
      · exact (exec_inte hei hdi hexec).trans hinte
    · simp [hinte, hp] at hmasked

/-- Settles O18: the latches are control state, and no instruction and no Step does more to the configuration than to keep
it. -/
theorem latchesAndConfigurationAreKept : Obligations.LatchesAndConfigurationAreKept := by
  refine ⟨fun i s t h => ?_, fun s t h => (h ▸ step_answers s).onlyStores.config⟩
  have hcontrol := exec_control h
  exact ⟨congrArg State.Control.w hcontrol, congrArg State.Control.z hcontrol, (h ▸ exec_answers i s).onlyStores.config⟩

/-- Settles O19, by the frame of the instruction. -/
theorem unlistedFlagsAreUnchanged : Obligations.UnlistedFlagsAreUnchanged := fun i s t h =>
  have hflags := (exec_framed i s t h).flags
  ⟨hflags.szap, hflags.carry⟩

/-- Settles O20, by the frame of the instruction. -/
theorem stackPointerChangesOnlyByItsInstructions : Obligations.StackPointerChangesOnlyByItsInstructions :=
  fun i s t h => (exec_framed i s t h).sp

/-- Settles O21, by the frame of the instruction: the very list is kept. -/
theorem onlyStoresChangeMemory : Obligations.OnlyStoresChangeMemory := fun i s t hi h a =>
  congrArg (Memory.read · a) ((exec_framed i s t h).mem hi)

/-- Settles O22, by the frame of the instruction. -/
theorem onlyTransfersWritePc : Obligations.OnlyTransfersWritePc := fun i s t hi h =>
  (exec_framed i s t h).pc hi

/-- Settles O26: splitting a word into its bytes and joining them are inverse. -/
theorem pairsRoundTrip : Obligations.PairsRoundTrip := by
  refine fun s v => ⟨fun p => ⟨State.getPair_setPair s p v, ?_, ?_⟩, joinBytes_hi_lo v, toNat_hiByte v, toNat_loByte v⟩
  · cases p <;> exact toNat_hiByte v
  · cases p <;> exact toNat_loByte v

/-- Settles O53: the pop finds what the push stored, and writing it back changes nothing. -/
theorem popUndoesPush : Obligations.PopUndoesPush := by
  refine ⟨fun s x hwf hpush => ?_, packFlags_fixedBits, fun f => ⟨packFlags f, unpackFlags_packFlags f⟩⟩
  have hpop := exec_pop_of_pushed (u := ((s.setMem (s.pushedMem (s.getStackReg x))).setSp (s.sp - 2)).setCycles 11) x hwf
    hpush rfl rfl rfl rfl rfl
  exact ⟨_, (execAll_cons (exec_push x hpush)).trans (execAll_cons hpop), by simp, by simp, by simp⟩

/-- Settles O17: the invariant speaks of the memory and the configuration that construction takes, and reset is construction
on no listed byte. -/
theorem constructionMeetsTheInvariant : Obligations.ConstructionMeetsTheInvariant := by
  have hconstruct (c : Config) (r : ResetRegs) (m : Memory) (hc : c.wf) (hm : m.wf)
      (hbounds : ∀ x ∈ m, x.1 < c.memCapacity) : (State.construct c r m).Inv := ⟨hm, hbounds, hc⟩
  exact ⟨hconstruct, fun _ _ _ => ⟨rfl, rfl, rfl⟩, hconstruct _ _ _ (by decide) Memory.nil_wf (by simp),
    rfl, rfl, rfl, rfl, rfl⟩

end Sys2Proof.Claims
end

section
/-! PROOFS. The memory family (O12, O23, O24), in three parts.

A Step that accepts no request executes the instruction whose bytes stand at PC (`step_of_atPc`), since the decoder looks
at no byte beyond the length of the opcode. `exec_stored` says for every instruction which bytes of memory it replaces, and
`exec_fault` why it faults. The obligations are read off these. -/

namespace Sys2Proof

/-! ### The decoder looks at no byte the instruction does not have (R60, R76) -/

section

variable {z z' w w' : Byte}

theorem decodeGroup00_congr (mid low : BitVec 3) (hz : 2 ≤ opLength (0b00#2 ++ mid ++ low) → z = z')
    (hw : opLength (0b00#2 ++ mid ++ low) = 3 → w = w') : decodeGroup00 mid low z w = decodeGroup00 mid low z' w' := by
  unfold decodeGroup00
  split
  · rfl
  · unfold decodeLxiColumn; split <;> simp (disch := decide) only [hz, hw]
  · unfold decodeStoreColumn; split <;> simp (disch := decide) only [hz, hw]
  · rfl
  · rfl
  · rfl
  · have hlen : ∀ mid : BitVec 3, 2 ≤ opLength (0b00#2 ++ mid ++ 0b110#3) := by decide
    rw [hz (hlen mid)]
  · rfl

theorem decodeGroup11_congr (mid low : BitVec 3) (hz : 2 ≤ opLength (0b11#2 ++ mid ++ low) → z = z')
    (hw : opLength (0b11#2 ++ mid ++ low) = 3 → w = w') : decodeGroup11 mid low z w = decodeGroup11 mid low z' w' := by
  unfold decodeGroup11
  split
  · rfl
  · rfl
  · unfold decodeJumpColumn; split <;> simp (disch := decide) only [hz, hw]
  · unfold decodeControlColumn; split <;> simp (disch := decide) only [hz, hw]
  · unfold decodeCallColumn; split <;> simp (disch := decide) only [hz, hw]
  · unfold decodePushColumn; split <;> simp (disch := decide) only [hz, hw]
  · unfold decodeImmediateColumn; split <;> simp (disch := decide) only [hz]
  · rfl

/-- Two operand bytes that agree where the opcode's length reaches decode alike. -/
theorem decodeInstr_congr (op : Byte) (hz : 2 ≤ opLength op → z = z') (hw : opLength op = 3 → w = w') :
    decodeInstr op z w = decodeInstr op z' w' := by
  rw [← fields_append op] at hz hw
  unfold decodeInstr
  split
  next hgroup =>
    rw [hgroup] at hz hw
    exact decodeGroup00_congr _ _ hz hw
  next => rfl
  next => rfl
  next hgroup =>
    rw [hgroup] at hz hw
    exact decodeGroup11_congr _ _ hz hw

end

variable {i : Instr} {bytes : List Byte}

theorem opLength_le_three (op : Byte) : opLength op ≤ 3 := by
  unfold opLength
  split_ifs <;> omega

/-- A list that decodes with nothing left is an opcode and the operand bytes its length asks for (R60, R61). -/
theorem decode_whole (h : decode bytes = .ok (i, [])) :
    ∃ op rest, bytes = op :: rest ∧ bytes.length = opLength op ∧
      i = decodeInstr op (bytes.getD 1 0) (bytes.getD 2 0) := by
  cases bytes with
  | nil => cases h
  | cons op rest =>
    refine ⟨op, rest, rfl, ?_⟩
    simp only [decode] at h
    split at h
    next hlen => cases h; exact ⟨hlen.symm, rfl⟩
    next hlen => cases h; exact ⟨hlen.symm, rfl⟩
    next hlen => cases h; exact ⟨hlen.symm, rfl⟩
    next => cases h

end Sys2Proof

namespace Sys2Proof.Machine

open State Sys2Proof.Claims

variable {s t : State} {i : Instr} {v : Byte}

/-! ### A Step that fetches the bytes at PC -/

namespace State

theorem acceptInterrupt_eq_none (h : ¬ Accepts s) : s.acceptInterrupt = none := by
  rw [acceptInterrupt_none]
  cases hinte : s.inte
  · exact .inl rfl
  · exact .inr (by_contra fun hpending => h ⟨hinte, hpending⟩)

/-- A byte that stands at PC is where the fetch reads it: inside Memory, `k` places on (R53, R67). -/
theorem byteAt_of_atPc {bytes : List Byte} {k : Nat} (h : AtPc s bytes) (hk : k < bytes.length) :
    s.inBounds (s.pc + BitVec.ofNat 16 k) ∧ s.byteAt (s.pc + BitVec.ofNat 16 k) = bytes[k] := by
  have haddr : (s.pc + BitVec.ofNat 16 k).toNat = (s.pc.toNat + k) % 65536 := by simp
  rw [inBounds_iff, byteAt, haddr]
  exact h k hk

/-- Where an opcode and the operand bytes of its length stand at PC, the fetch answers the opcode, loads the latches that
have a byte and advances PC past the instruction (R67). -/
theorem fetch_of_atPc {op : Byte} {rest : List Byte} (h : AtPc s (op :: rest)) (hlen : (op :: rest).length = opLength op) :
    s.fetch = .ok (op, (s.setLatches ((op :: rest).getD 1 s.z) ((op :: rest).getD 2 s.w)).setPc
      (s.pc + BitVec.ofNat 16 (op :: rest).length)) := by
  obtain ⟨hin, hop⟩ := byteAt_of_atPc h (k := 0) (by simp)
  rw [BitVec.add_zero] at hin hop
  rw [List.getElem_cons_zero] at hop
  have hz : s.fetchedZ op = (op :: rest).getD 1 s.z := by
    rw [fetchedZ]
    split
    · rw [List.getD_eq_getElem _ _ (by omega)]
      exact (byteAt_of_atPc h (k := 1) (by omega)).2
    · rw [List.getD_eq_default _ _ (by omega)]
  have hw : s.fetchedW op = (op :: rest).getD 2 s.w := by
    rw [fetchedW]
    split
    · rw [List.getD_eq_getElem _ _ (by omega)]
      exact (byteAt_of_atPc h (k := 2) (by omega)).2
    · have := opLength_le_three op
      rw [List.getD_eq_default _ _ (by omega)]
  rw [fetch_eq, hop, hz, hw, hlen, if_pos]
  exact ⟨hin, fun _ => (byteAt_of_atPc h (k := 1) (by omega)).1, fun _ => (byteAt_of_atPc h (k := 2) (by omega)).1⟩

end State

/-- A Step that accepts no request executes the instruction whose bytes stand at PC (R67, R264). -/
theorem step_of_atPc {bytes : List Byte} (haccepts : ¬ Accepts s) (hdecode : decode bytes = .ok (i, []))
    (h : AtPc s bytes) :
    step s = exec i { s with
      pc := s.pc + BitVec.ofNat 16 bytes.length, z := bytes.getD 1 s.z, w := bytes.getD 2 s.w } := by
  obtain ⟨op, rest, rfl, hlen, rfl⟩ := decode_whole hdecode
  have hop : s.currentOpcode = s.fetch := by
    rw [currentOpcode, acceptInterrupt_eq_none haccepts]
  have hsame (k : Nat) (x y : Byte) (hk : k < opLength op) : (op :: rest).getD k x = (op :: rest).getD k y := by
    rw [List.getD_eq_getElem _ _ (hlen ▸ hk), List.getD_eq_getElem _ _ (hlen ▸ hk)]
  rw [step, hop, fetch_of_atPc h hlen]
  exact congrArg (exec · _) (decodeInstr_congr op (hsame 1 _ _) fun h3 => hsame 2 _ _ (by omega))

/-! ### The bytes an instruction stores -/

/-- Memory of `t` reads as that of `s` but at the listed addresses, where it holds the listed bytes. -/
def Stored (s t : State) (cells : List (Nat × Byte)) : Prop :=
  ∀ a, Memory.read t.mem a = (cells.lookup a).getD (Memory.read s.mem a)

theorem getD_lookup_cons (b a : Nat) (v d : Byte) (cells : List (Nat × Byte)) :
    (((a, v) :: cells).lookup b).getD d = if b = a then v else (cells.lookup b).getD d := by
  rw [List.lookup_cons]
  split
  next hb => rw [if_pos (eq_of_beq hb)]; rfl
  next hb => rw [if_neg (ne_of_beq_false hb)]

theorem stored_nothing (h : t.mem = s.mem) : Stored s t [] := fun a => congrArg (Memory.read · a) h

theorem stored_one {a : Nat} (hwf : s.mem.wf) (h : t.mem = Memory.write s.mem a v) : Stored s t [(a, v)] := by
  intro b
  rw [h, Memory.read_write hwf.1, getD_lookup_cons]
  rfl

theorem stored_two {a c : Nat} {w : Byte} (hwf : s.mem.wf) (hne : a ≠ c)
    (h : t.mem = Memory.write (Memory.write s.mem a v) c w) : Stored s t [(a, v), (c, w)] := by
  intro b
  rw [h, Memory.read_write (Memory.write_wf hwf a v).1, Memory.read_write hwf.1, getD_lookup_cons, getD_lookup_cons]
  by_cases hb : b = a
  · rw [if_neg (hb ▸ hne), if_pos hb, if_pos hb]
  · rw [if_neg hb, if_neg hb]
    rfl

section

variable (hwf : s.mem.wf)
include hwf

theorem writeByte_stored {a : Word} (h : s.writeByte a v = .ok t) : Stored s t [(a.toNat, v)] := by
  obtain ⟨-, rfl⟩ := writeByte_ok.mp h
  exact stored_one hwf rfl

theorem writeWord_stored {a v16 : Word} (h : s.writeWord a v16 = .ok t) :
    Stored s t [(a.toNat, loByte v16), (nextAddress a.toNat, hiByte v16)] := by
  obtain ⟨-, -, rfl⟩ := writeWord_ok.mp h
  have hnext : (a + 1).toNat = nextAddress a.toNat := BitVec.toNat_add a 1
  rw [← hnext]
  exact stored_two hwf (by bv_omega) rfl

theorem stored_pushedMem {v16 : Word} (h : t.mem = s.pushedMem v16) :
    Stored s t (pushedBytes s (hiByte v16) (loByte v16)) := by
  rw [pushedBytes, ← toNat_sp_sub_one, ← toNat_sp_sub_two]
  exact stored_two hwf (by bv_omega) h

theorem push16_stored {v16 : Word} (h : s.push16 v16 = .ok t) :
    Stored s t (pushedBytes s (hiByte v16) (loByte v16)) := by
  rw [push16_eq] at h
  split at h
  · cases h
    exact stored_pushedMem hwf rfl
  · cases h

theorem callTo_stored {target : Word} (h : s.callTo target = .ok t) : Stored s t (pushedPc s) := by
  rw [callTo_eq] at h
  split at h
  · cases h
    rw [pushedPc, ← toNat_hiByte, ← toNat_loByte, BitVec.ofNat_toNat, BitVec.ofNat_toNat]
    exact stored_pushedMem hwf rfl
  · cases h

/-- A write to M stores at HL, a write to a register nothing (R62). -/
theorem writeOperand_stored {o : Operand} (h : s.writeOperand o v = .ok t) :
    Stored s t (if o = .m then [(hlNat s, v)] else []) := by
  cases o with
  | reg r =>
    cases h
    exact stored_nothing (setReg_mem s r v)
  | m =>
    rw [if_pos rfl, ← toNat_hl]
    exact writeByte_stored hwf h

end

/-! ### What is stored, in the plain numbers of the statements -/

theorem readOperand_value {o : Operand} (h : s.readOperand o = .ok v) : v = operandValue s o := by
  cases o with
  | reg r =>
    cases h
    cases r <;> rfl
  | m =>
    rw [(readByte_ok.mp h).2, byteAt, toNat_hl]
    rfl

theorem toNat_indexAddress (s : State) (p : IndexPair) : (s.indexAddress p).toNat = indexNat s p := by
  cases p <;> exact toNat_joinBytes ..

theorem packFlags_eq_flagsByte (f : Flags) : packFlags f = flagsByte f := by
  obtain ⟨sign, zero, auxCarry, parity, carry⟩ := f
  revert sign zero auxCarry parity carry
  decide

/-! ### Every instruction -/

theorem storedBytes_of_not_stores (h : storesToMemory i = false) : storedBytes s i = [] := by
  cases i with
  | mov dst | mvi dst | inr dst | dcr dst =>
    cases dst with
    | reg => rfl
    | m => cases h
  | stax | sta | shld | xthl | push | call | rst | cnz | cz | cnc | cc | cpo | cpe | cp | cm => cases h
  | _ => rfl

theorem retire_stored {n : Nat} {r : Except Fault State} {cells : List (Nat × Byte)}
    (hr : ∀ u, r = .ok u → Stored s u cells) (h : retire n r = .next t) : Stored s t cells := by
  obtain ⟨u, hu, rfl⟩ := retire_next.mp h
  exact hr u hu

theorem updateOperand_stored {dst : Operand} {k : Byte → Flags → Byte × Flags} (hwf : s.mem.wf)
    (h : updateOperand dst s k = .next t) :
    Stored s t (if dst = .m then [(hlNat s, (k (operandValue s dst) s.flags).1)] else []) := by
  refine retire_stored (fun u hu => ?_) h
  obtain ⟨v, hv, hu⟩ := bind_eq_ok.mp hu
  obtain ⟨x, hx, hu⟩ := bind_eq_ok.mp hu
  cases hu
  have hstored := writeOperand_stored hwf hx
  rwa [readOperand_value hv] at hstored

theorem callIf_stored {cond : Cond} {target : Word} (hwf : s.mem.wf) (h : callIf cond target s = .next t) :
    Stored s t (if condHolds s.flags cond then pushedPc s else []) := by
  unfold callIf at h
  split at h
  next hc => rw [if_pos hc]; exact retire_stored (fun _ => callTo_stored hwf) h
  next hc => rw [if_neg hc]; cases h; exact stored_nothing rfl

theorem writeWord_hl_stored {a : Word} (hwf : s.mem.wf) (h : s.writeWord a s.hl = .ok t) :
    Stored s t [(a.toNat, s.regs.l), (nextAddress a.toNat, s.regs.h)] := by
  have hstored := writeWord_stored hwf h
  rwa [hl, getPair, hiByte_joinBytes, loByte_joinBytes] at hstored

theorem execPush_stored {src : StackReg} (hwf : s.mem.wf) (h : execPush src s = .next t) :
    Stored s t (storedBytes s (.push src)) := by
  have hpush := retire_stored (fun _ => push16_stored hwf) h
  cases src with
  | pair p =>
    rw [getStackReg, getPair, hiByte_joinBytes, loByte_joinBytes] at hpush
    cases p <;> exact hpush
  | psw => rwa [getStackReg, psw, hiByte_joinBytes, loByte_joinBytes, packFlags_eq_flagsByte] at hpush

theorem execXthl_stored (hwf : s.mem.wf) (h : execXthl s = .next t) : Stored s t (storedBytes s .xthl) := by
  refine retire_stored (fun u hu => ?_) h
  obtain ⟨v, -, hu⟩ := bind_eq_ok.mp hu
  obtain ⟨x, hx, hu⟩ := bind_eq_ok.mp hu
  cases hu
  have hstored := writeWord_hl_stored hwf hx
  exact hstored

/-- After an instruction that completes, memory holds the bytes it stored and elsewhere what was there (R31, R42). -/
theorem exec_stored (hwf : s.mem.wf) (h : exec i s = .next t) : Stored s t (storedBytes s i) := by
  cases i with
  -- a register or M operand as destination
  | mov dst src =>
    refine retire_stored (fun u hu => ?_) h
    obtain ⟨v, hv, hu⟩ := bind_eq_ok.mp hu
    rw [storedBytes, ← readOperand_value hv]
    exact writeOperand_stored hwf hu
  | mvi => exact retire_stored (fun _ => writeOperand_stored hwf) h
  | inr dst | dcr dst =>
    have hupdate := updateOperand_stored hwf h
    cases dst <;> exact hupdate
  -- stores at a named address
  | stax p =>
    rw [storedBytes, ← toNat_indexAddress]
    exact retire_stored (fun _ => writeByte_stored hwf) h
  | sta => exact retire_stored (fun _ => writeByte_stored hwf) h
  | shld => exact retire_stored (fun _ => writeWord_hl_stored hwf) h
  -- the stack
  | xthl => exact execXthl_stored hwf h
  | push src => exact execPush_stored hwf h
  | call | rst => exact retire_stored (fun _ => callTo_stored hwf) h
  | cnz | cz | cnc | cc | cpo | cpe | cp | cm =>
    have hcall := callIf_stored hwf h
    simp only [condHolds, Bool.not_eq_true'] at hcall
    exact hcall
  -- instructions that store nothing
  | _ =>
    rw [storedBytes_of_not_stores rfl]
    exact stored_nothing ((exec_framed _ s t h).mem rfl)

/-! ### Why an instruction faults (R260 to R262) -/

/-- What makes executing `i` in `s` raise a fault: an address outside Memory, a hook that is not there, or an
instruction that raises `UnimplementedOpcode` in every state. -/
inductive FaultCause (i : Instr) (s : State) : Fault → Prop where
  | outOfBounds {a : Word} (ha : s.inBounds a = false) : FaultCause i s .outOfBoundsAccess
  | noReadPort {port : Byte} (hi : i = .inp port) (hport : s.config.readPortBound = false) :
      FaultCause i s .missingPortHandler
  | noWritePort {port : Byte} (hi : i = .out port) (hport : s.config.writePortBound = false) :
      FaultCause i s .missingPortHandler
  | unimplemented (hi : i = .hlt ∨ ∃ byte, i = .undefined byte) : FaultCause i s .unimplementedOpcode

/-- Every fault that the computation `x` raises has its cause. -/
def FaultsByCause {α : Type} (i : Instr) (s : State) (x : Except Fault α) : Prop :=
  ∀ f, x = .error f → FaultCause i s f

namespace FaultsByCause

variable {α β : Type}

theorem ok (x : α) : FaultsByCause i s (.ok x) := nofun

theorem bind {x : Except Fault α} {k : α → Except Fault β} (hx : FaultsByCause i s x)
    (hk : ∀ y, FaultsByCause i s (k y)) : FaultsByCause i s (x >>= k) := by
  intro f hf
  cases x with
  | ok y => exact hk y f hf
  | error e =>
    cases hf
    exact hx _ rfl

/-- A computation that can only fault in its first part. -/
theorem map {x : Except Fault α} {k : α → β} (hx : FaultsByCause i s x) :
    FaultsByCause i s (x >>= fun y => pure (k y)) :=
  hx.bind fun y => ok (k y)

/-- The guard of every access to two bytes. -/
theorem guard {a b : Word} {x : α} :
    FaultsByCause i s (if s.inBounds a ∧ s.inBounds b then .ok x else .error .outOfBoundsAccess) := by
  intro f hf
  split at hf
  · cases hf
  next hbounds =>
    cases hf
    cases ha : s.inBounds a with
    | false => exact .outOfBounds ha
    | true => exact .outOfBounds (a := b) (by simpa [ha] using hbounds)

theorem readByte (a : Word) : FaultsByCause i s (s.readByte a) := fun _ hf => by
  obtain ⟨ha, rfl⟩ := readByte_error.mp hf
  exact .outOfBounds ha

theorem writeByte (a : Word) (v : Byte) : FaultsByCause i s (s.writeByte a v) := fun _ hf => by
  obtain ⟨ha, rfl⟩ := writeByte_error.mp hf
  exact .outOfBounds ha

theorem readOperand (o : Operand) : FaultsByCause i s (s.readOperand o) := by
  cases o with
  | reg r => exact ok _
  | m => exact readByte s.hl

theorem writeOperand (o : Operand) (v : Byte) : FaultsByCause i s (s.writeOperand o v) := by
  cases o with
  | reg r => exact ok _
  | m => exact writeByte s.hl v

theorem readWord (a : Word) : FaultsByCause i s (s.readWord a) := readWord_eq s a ▸ guard

theorem writeWord (a v : Word) : FaultsByCause i s (s.writeWord a v) := writeWord_eq s a v ▸ guard

theorem push16 (v : Word) : FaultsByCause i s (s.push16 v) := push16_eq s v ▸ guard

theorem pop16 : FaultsByCause i s s.pop16 := pop16_eq s ▸ guard

theorem callTo (target : Word) : FaultsByCause i s (s.callTo target) := callTo_eq s target ▸ guard

theorem returnFrom : FaultsByCause i s s.returnFrom := returnFrom_eq s ▸ guard

theorem portRead {port : Byte} (hi : i = .inp port) : FaultsByCause i s (s.portRead port) := by
  intro f hf
  unfold State.portRead at hf
  split at hf
  · cases hf
  next hport =>
    cases hf
    exact .noReadPort hi (Bool.eq_false_iff.mpr hport)

theorem portWrite {port v : Byte} (hi : i = .out port) : FaultsByCause i s (s.portWrite port v) := by
  intro f hf
  unfold State.portWrite at hf
  split at hf
  · cases hf
  next hport =>
    cases hf
    exact .noWritePort hi (Bool.eq_false_iff.mpr hport)

theorem retire {n : Nat} {x : Except Fault State} {f : Fault} (hx : FaultsByCause i s x)
    (h : retire n x = .fault f) : FaultCause i s f :=
  hx f (retire_fault.mp h)

end FaultsByCause

variable {f : Fault}

theorem callIf_fault {cond : Cond} {target : Word} (h : callIf cond target s = .fault f) : FaultCause i s f := by
  unfold callIf at h
  split at h
  · exact FaultsByCause.retire (.callTo target) h
  · cases h

theorem returnIf_fault {cond : Cond} (h : returnIf cond s = .fault f) : FaultCause i s f := by
  unfold returnIf at h
  split at h
  · exact FaultsByCause.retire .returnFrom h
  · cases h

/-- Every fault of an instruction has its cause. -/
theorem exec_fault (h : exec i s = .fault f) : FaultCause i s f := by
  cases i with
  -- data movement
  | mov dst src =>
    exact FaultsByCause.retire (.bind (.readOperand src) (.writeOperand dst)) h
  | mvi dst v => exact FaultsByCause.retire (.writeOperand dst v) h
  | stax | sta => exact FaultsByCause.retire (.writeByte _ _) h
  | ldax | lda => exact FaultsByCause.retire (.map (.readByte _)) h
  | shld a => exact FaultsByCause.retire (.writeWord a s.hl) h
  | lhld a => exact FaultsByCause.retire (.map (.readWord a)) h
  -- operations on a register or M operand
  | add src | adc src | sub src | sbb src | ana src | xra src | ora src | cmp src =>
    exact FaultsByCause.retire (.map (.readOperand src)) h
  | inr dst | dcr dst =>
    exact FaultsByCause.retire (.bind (.readOperand dst) fun v => .map (.writeOperand dst _)) h
  -- control transfer
  | call | rst => exact FaultsByCause.retire (.callTo _) h
  | cnz | cz | cnc | cc | cpo | cpe | cp | cm => exact callIf_fault h
  | ret => exact FaultsByCause.retire .returnFrom h
  | rnz | rz | rnc | rc | rpo | rpe | rp | rm => exact returnIf_fault h
  -- stack and exchange
  | push => exact FaultsByCause.retire (.push16 _) h
  | pop => exact FaultsByCause.retire (.map .pop16) h
  | xthl => exact FaultsByCause.retire (.bind (.readWord s.sp) fun v => .map (.writeWord s.sp s.hl)) h
  -- input/output and control
  | inp => exact FaultsByCause.retire (.map (.portRead rfl)) h
  | out => exact FaultsByCause.retire (.portWrite rfl) h
  | hlt =>
    cases h
    exact .unimplemented (.inl rfl)
  | undefined byte =>
    cases h
    exact .unimplemented (.inr ⟨byte, rfl⟩)
  -- register operations, jumps, EI, DI and NOP, which cannot fault
  | _ => cases h

/-! ### Memory of the full capacity (R43) -/

theorem inBounds_of_full (hfull : s.config.memCapacity = 65536) (a : Word) : s.inBounds a = true :=
  inBounds_iff.mpr (hfull ▸ a.isLt)

theorem currentOpcode_of_full (hfull : s.config.memCapacity = 65536) : ∃ op u, s.currentOpcode = .ok (op, u) := by
  unfold currentOpcode
  split
  next r _ => exact ⟨r.1, r.2, rfl⟩
  next =>
    have hbounds := inBounds_of_full hfull
    rw [fetch_eq, if_pos ⟨hbounds _, fun _ => hbounds _, fun _ => hbounds _⟩]
    exact ⟨_, _, rfl⟩

theorem exec_of_full (hfull : s.config.memCapacity = 65536) (i : Instr) : exec i s ≠ .fault .outOfBoundsAccess := by
  intro h
  cases exec_fault h with
  | outOfBounds ha => exact absurd ((inBounds_of_full hfull _).symm.trans ha) nofun

end Sys2Proof.Machine

namespace Sys2Proof.Claims

open Sys2Proof.Machine State

/-- Settles O12: at full capacity every address is inside Memory, so neither the fetch nor the instruction has a cause for
this fault. -/
theorem fullMemoryIsNeverOutOfBounds : Obligations.FullMemoryIsNeverOutOfBounds := by
  intro s hfull
  obtain ⟨op, u, hop⟩ := currentOpcode_of_full hfull
  rw [step, hop]
  exact exec_of_full ((congrArg Config.memCapacity (currentOpcode_onlyStores hop).config).trans hfull) _

/-- Settles O23: memory after the instruction is given by `exec_stored`, so the bytes it stored stand where the next Step
fetches. -/
theorem storeIsSeenByTheNextFetch : Obligations.StoreIsSeenByTheNextFetch := by
  intro i s t hwf h
  have hmem := exec_stored hwf h
  refine ⟨hmem, fun j bytes haccepts hdecode hbytes => step_of_atPc haccepts hdecode fun k hk => ?_⟩
  obtain ⟨hin, hbyte⟩ := hbytes k hk
  have hconfig : t.config = s.config := (h ▸ exec_answers i s).onlyStores.config
  exact ⟨by rwa [InMemory, hconfig], (hmem _).trans hbyte⟩

/-- Settles O24: what each access answers inside Memory, and its fault outside. -/
theorem memoryPrimitives : Obligations.MemoryPrimitives := by
  refine fun s a v hwf => ⟨fun hin => ?_, fun hout => ?_⟩
  · have hbounds : s.inBounds a := inBounds_iff.mpr hin
    exact ⟨readByte_ok.mpr ⟨hbounds, rfl⟩, _, writeByte_ok.mpr ⟨hbounds, rfl⟩, Memory.read_write hwf.1 a.toNat v⟩
  · have hbounds : s.inBounds a = false := Bool.eq_false_iff.mpr (mt inBounds_iff.mp hout)
    exact ⟨readByte_error.mpr ⟨hbounds, rfl⟩, writeByte_error.mpr ⟨hbounds, rfl⟩⟩

end Sys2Proof.Claims
end

section
/-! PROOFS. The encoding family (O1, O2, O3, O6, O4, O5), in three parts.

What decoding a list of bytes answers is said once, by `decode_cons`: the opcode's length decides, and the bytes after it
are left. Encoding a decoded instruction gives its bytes back, since the decoder keeps the opcode byte and, group by group,
the operand bytes. And every well-formed instruction is decoded from some bytes, so these two together say that decoding
an encoded one gives it back. The two statements on the Step are read off the equation of the fetch. -/

namespace Sys2Proof

variable {z w : Byte} {i : Instr}

/-! ### Decoding a list of bytes (R60, R61) -/

theorem opLength_cases (op : Byte) : opLength op = 1 ∨ opLength op = 2 ∨ opLength op = 3 := by
  unfold opLength
  split_ifs
  · exact .inr (.inl rfl)
  · exact .inr (.inr rfl)
  · exact .inl rfl

/-- The decoder refuses a list that is shorter than its opcode's length, and else takes that many bytes off it. -/
theorem decode_cons (op : Byte) (rest : List Byte) :
    decode (op :: rest) = if (op :: rest).length < opLength op then .error (.missingOperandBytes op)
      else .ok (decodeInstr op (rest.getD 0 0) (rest.getD 1 0), (op :: rest).drop (opLength op)) := by
  rcases opLength_cases op with hlen | hlen | hlen
  · rw [hlen, if_neg (by simp), decodeInstr_congr op (z' := 0) (w' := 0) (by omega) (by omega)]
    simp only [decode, hlen, List.drop_succ_cons, List.drop_zero]
  · rcases rest with _ | ⟨z, rest⟩
    · simp [decode, hlen]
    · rw [hlen, if_neg (by simp), List.getD_cons_zero, decodeInstr_congr op (w' := 0) (fun _ => rfl) (by omega)]
      simp only [decode, hlen, List.drop_succ_cons, List.drop_zero]
  · rcases rest with _ | ⟨z, _ | ⟨w, rest⟩⟩ <;> simp [decode, hlen]

/-- Whatever follows the bytes that the opcode's length asks for is left. -/
theorem decode_take_append (op z w : Byte) (rest : List Byte) :
    decode ([op, z, w].take (opLength op) ++ rest) = .ok (decodeInstr op z w, rest) := by
  rcases opLength_cases op with hlen | hlen | hlen
  · simp only [hlen, List.take, List.cons_append, List.nil_append, decode]
    rw [decodeInstr_congr op (by omega) (by omega)]
  · simp only [hlen, List.take, List.cons_append, List.nil_append, decode]
    rw [decodeInstr_congr op (fun _ => rfl) (by omega)]
  · simp only [hlen, List.take, List.cons_append, List.nil_append, decode]

/-! ### What is decoded is well-formed (R69) -/

theorem eq_mov_m_m_of_not_wf (h : i.wf = false) : i = .mov .m .m := by
  unfold Instr.wf Instr.movOperandsOk at h
  split at h
  · rfl
  · cases h

/-- MOV M,M would have the opcode byte of HLT, and that byte decodes to HLT. -/
theorem wf_decodeInstr (op z w : Byte) : (decodeInstr op z w).wf = true := by
  by_contra hnot
  have hmov := eq_mov_m_m_of_not_wf (Bool.eq_false_iff.mpr hnot)
  have hop : op = 0x76 := by
    rw [← opcodeOf_decodeInstr op z w, hmov]
    rfl
  subst hop
  cases hmov

/-! ### The decoder keeps the operand bytes (R61, R67) -/

theorem operandBytes_decodeGroup00 (mid low : BitVec 3) (v : Word) :
    operandBytes (decodeGroup00 mid low (loByte v) (hiByte v)) =
      [loByte v, hiByte v].take (opLength (0b00#2 ++ mid ++ low) - 1) := by
  unfold decodeGroup00
  rw [joinBytes_hi_lo]
  split
  · unfold decodeNopColumn; split <;> rfl
  · unfold decodeLxiColumn; split <;> rfl
  · unfold decodeStoreColumn; split <;> rfl
  · unfold decodeInxColumn; split <;> rfl
  · have hlen : ∀ mid : BitVec 3, opLength (0b00#2 ++ mid ++ 0b100#3) = 1 := by decide
    rw [hlen]; rfl
  · have hlen : ∀ mid : BitVec 3, opLength (0b00#2 ++ mid ++ 0b101#3) = 1 := by decide
    rw [hlen]; rfl
  · have hlen : ∀ mid : BitVec 3, opLength (0b00#2 ++ mid ++ 0b110#3) = 2 := by decide
    rw [hlen]; rfl
  · unfold decodeAccumulatorColumn; split <;> rfl

theorem operandBytes_decodeGroup01 (dst src : Operand) : operandBytes (decodeGroup01 dst src) = [] := by
  unfold decodeGroup01
  split <;> rfl

theorem operandBytes_decodeGroup10 (src : Operand) (mid : BitVec 3) : operandBytes (decodeGroup10 src mid) = [] := by
  unfold decodeGroup10
  split <;> rfl

theorem operandBytes_decodeGroup11 (mid low : BitVec 3) (v : Word) :
    operandBytes (decodeGroup11 mid low (loByte v) (hiByte v)) =
      [loByte v, hiByte v].take (opLength (0b11#2 ++ mid ++ low) - 1) := by
  unfold decodeGroup11
  rw [joinBytes_hi_lo]
  split
  · unfold decodeReturnColumn; split <;> rfl
  · unfold decodePopColumn; split <;> rfl
  · unfold decodeJumpColumn; split <;> rfl
  · unfold decodeControlColumn; rw [joinBytes_hi_lo]; split <;> rfl
  · unfold decodeCallColumn; split <;> rfl
  · unfold decodePushColumn; split <;> rfl
  · unfold decodeImmediateColumn; split <;> rfl
  · have hlen : ∀ mid : BitVec 3, opLength (0b11#2 ++ mid ++ 0b111#3) = 1 := by decide
    rw [hlen]; rfl

theorem opLength_group01 : ∀ mid low : BitVec 3, opLength (0b01#2 ++ mid ++ low) = 1 := by decide

theorem opLength_group10 : ∀ mid low : BitVec 3, opLength (0b10#2 ++ mid ++ low) = 1 := by decide

theorem exists_word_of_bytes (z w : Byte) : ∃ v, loByte v = z ∧ hiByte v = w :=
  ⟨joinBytes w z, loByte_joinBytes w z, hiByte_joinBytes w z⟩

/-- Of the two latches a decoded instruction keeps as many bytes as the length of its opcode byte asks for. -/
theorem operandBytes_decodeInstr (op z w : Byte) :
    operandBytes (decodeInstr op z w) = [z, w].take (opLength op - 1) := by
  obtain ⟨v, rfl, rfl⟩ := exists_word_of_bytes z w
  conv_rhs => rw [← fields_append op]
  unfold decodeInstr
  split
  next hgroup => rw [hgroup, operandBytes_decodeGroup00]
  next hgroup => rw [hgroup, operandBytes_decodeGroup01, opLength_group01]; rfl
  next hgroup => rw [hgroup, operandBytes_decodeGroup10, opLength_group10]; rfl
  next hgroup => rw [hgroup, operandBytes_decodeGroup11]

theorem encode_decodeInstr (op z w : Byte) : encode (decodeInstr op z w) = [op, z, w].take (opLength op) := by
  rw [encode, opcodeOf_decodeInstr, operandBytes_decodeInstr]
  rcases opLength_cases op with hlen | hlen | hlen <;> rw [hlen] <;> rfl

/-! ### Every well-formed instruction is decoded from some bytes (R68 to R73) -/

theorem decodeOperand_operandCode (o : Operand) : decodeOperand (operandCode o) = o := by
  rcases o with (_ | _ | _ | _ | _ | _ | _) | _ <;> rfl

theorem groupField_append : ∀ (g : BitVec 2) (mid low : BitVec 3), groupField (g ++ mid ++ low) = g := by decide

theorem midField_append : ∀ (g : BitVec 2) (mid low : BitVec 3), midField (g ++ mid ++ low) = mid := by decide

theorem lowField_append : ∀ (g : BitVec 2) (mid low : BitVec 3), lowField (g ++ mid ++ low) = low := by decide

theorem decodeInstr_group00 (mid low : BitVec 3) : decodeInstr (0b00#2 ++ mid ++ low) z w = decodeGroup00 mid low z w := by
  rw [decodeInstr, groupField_append, midField_append, lowField_append]
  rfl

theorem decodeInstr_group01 (mid low : BitVec 3) :
    decodeInstr (0b01#2 ++ mid ++ low) z w = decodeGroup01 (decodeOperand mid) (decodeOperand low) := by
  rw [decodeInstr, groupField_append, midField_append, lowField_append]
  rfl

theorem decodeInstr_group10 (mid low : BitVec 3) :
    decodeInstr (0b10#2 ++ mid ++ low) z w = decodeGroup10 (decodeOperand low) mid := by
  rw [decodeInstr, groupField_append, midField_append, lowField_append]
  rfl

theorem decodeGroup01_of_wf {dst src : Operand} (hwf : (Instr.mov dst src).wf = true) :
    decodeGroup01 dst src = .mov dst src := by
  unfold decodeGroup01
  split
  · cases hwf
  · rfl

theorem exists_bytes_of_word (v : Word) : ∃ w z, joinBytes w z = v := ⟨hiByte v, loByte v, joinBytes_hi_lo v⟩

/-- The opcode byte of a well-formed instruction decodes to it, with its operand bytes in the latches. -/
theorem exists_decodeInstr_opcodeOf (hwf : i.wf = true) : ∃ z w, decodeInstr (opcodeOf i) z w = i := by
  cases i with
  -- a register or M operand
  | mov dst src =>
    refine ⟨0, 0, (decodeInstr_group01 _ _).trans ?_⟩
    rw [decodeOperand_operandCode, decodeOperand_operandCode, decodeGroup01_of_wf hwf]
  | mvi dst d8 => exact ⟨d8, 0, by
      rw [opcodeOf, decodeInstr_group00]
      exact congrArg (Instr.mvi · d8) (decodeOperand_operandCode dst)⟩
  | inr o | dcr o | add o | adc o | sub o | sbb o | ana o | xra o | ora o | cmp o =>
    rcases o with (_ | _ | _ | _ | _ | _ | _) | _ <;> exact ⟨0, 0, rfl⟩
  -- a pair, a vector number or an undefined byte
  | lxi dst v =>
    obtain ⟨w, z, rfl⟩ := exists_bytes_of_word v
    refine ⟨z, w, ?_⟩
    rw [opcodeOf]
    rcases dst with (_ | _ | _) | _ <;> rfl
  | inx x | dcx x | dad x => rcases x with (_ | _ | _) | _ <;> exact ⟨0, 0, rfl⟩
  | push x | pop x => rcases x with (_ | _ | _) | _ <;> exact ⟨0, 0, rfl⟩
  | stax p | ldax p => cases p <;> exact ⟨0, 0, rfl⟩
  | rst n => fin_cases n <;> exact ⟨0, 0, rfl⟩
  | undefined u => cases u <;> exact ⟨0, 0, rfl⟩
  -- an immediate byte, a port, a word
  | adi v | aci v | sui v | sbi v | ani v | xri v | ori v | cpi v | inp v | out v =>
    refine ⟨v, 0, ?_⟩
    rw [opcodeOf]
    rfl
  | shld v | lhld v | sta v | lda v | jmp v | call v
  | jnz v | jz v | jnc v | jc v | jpo v | jpe v | jp v | jm v
  | cnz v | cz v | cnc v | cc v | cpo v | cpe v | cp v | cm v =>
    obtain ⟨w, z, rfl⟩ := exists_bytes_of_word v
    refine ⟨z, w, ?_⟩
    rw [opcodeOf]
    rfl
  -- no operand
  | _ => exact ⟨0, 0, rfl⟩

end Sys2Proof

namespace Sys2Proof.Machine

open Sys2Proof.Claims

/-! ### The fetch of an instruction that leaves Memory (R67, R270) -/

theorem State.fetch_of_outside {s : State} (h : ¬ InMemory s s.pc.toNat ∨
      (2 ≤ opLength (Memory.read s.mem s.pc.toNat) ∧ ¬ InMemory s ((s.pc.toNat + 1) % 65536)) ∨
      (opLength (Memory.read s.mem s.pc.toNat) = 3 ∧ ¬ InMemory s ((s.pc.toNat + 2) % 65536))) :
    s.fetch = .error .outOfBoundsAccess := by
  rw [fetch_eq, if_neg]
  rintro ⟨hfirst, hsecond, hthird⟩
  rcases h with hout | ⟨hlen, hout⟩ | ⟨hlen, hout⟩
  · exact hout (inBounds_iff.mp hfirst)
  · exact hout (BitVec.toNat_add s.pc 1 ▸ inBounds_iff.mp (hsecond hlen))
  · exact hout (BitVec.toNat_add s.pc 2 ▸ inBounds_iff.mp (hthird hlen))

theorem State.currentOpcode_eq_fetch {s : State} (haccepts : ¬ Accepts s) : s.currentOpcode = s.fetch := by
  rw [currentOpcode, acceptInterrupt_eq_none haccepts]

end Sys2Proof.Machine

namespace Sys2Proof.Claims

open Sys2Proof.Machine

/-- Settles O1: a well-formed instruction is decoded from some bytes; these are its encoding, and decode to it. -/
theorem decodeOfEncodeGivesTheInstruction : Obligations.DecodeOfEncodeGivesTheInstruction := by
  intro i rest hwf
  obtain ⟨z, w, hi⟩ := exists_decodeInstr_opcodeOf hwf
  rw [← hi, encode_decodeInstr, decode_take_append]

/-- Settles O2: the decoder keeps the opcode byte and the operand bytes, and never gives MOV M,M. -/
theorem encodeOfDecodeGivesTheBytes : Obligations.EncodeOfDecodeGivesTheBytes := fun op z w =>
  ⟨wf_decodeInstr op z w, encode_decodeInstr op z w⟩

/-- Settles O3: both branches of `decode_cons`. -/
theorem decodeTakesTheLengthOfTheFirstByte : Obligations.DecodeTakesTheLengthOfTheFirstByte := by
  refine ⟨opLength_cases, fun bytes => ?_, fun op rest left i h => ?_⟩
  · cases bytes with
    | nil => exact ⟨nofun, fun _ => ⟨_, rfl⟩⟩
    | cons op rest =>
      rw [decode_cons]
      split
      next hshort => exact ⟨fun _ _ _ hbytes => by cases hbytes; exact hshort, fun _ => ⟨_, rfl⟩⟩
      next hlong => exact ⟨nofun, fun hshort => absurd (hshort op rest rfl) hlong⟩
  · rw [decode_cons] at h
    split at h
    · cases h
    · cases h
      rfl

/-- Settles O6: with no request accepted the Step begins with the fetch, which faults. -/
theorem fetchOutsideMemoryFaults : Obligations.FetchOutsideMemoryFaults := by
  intro s haccepts hout
  rw [step, State.currentOpcode_eq_fetch haccepts, State.fetch_of_outside hout]

/-- Settles O4: each word is the encoding of its instruction, by the "Encoding" line of its rule. -/
theorem specWordsDecode : Obligations.SpecWordsDecode :=
  ⟨rfl, rfl, rfl, rfl, rfl, rfl, rfl, rfl, rfl, rfl, rfl, rfl, rfl⟩

/-- Settles O5, by the lemma on a Step that fetches what stands at PC. -/
theorem stepRunsTheDecodedInstruction : Obligations.StepRunsTheDecodedInstruction := fun _ _ _ haccepts hdecode hbytes =>
  step_of_atPc haccepts hdecode hbytes

end Sys2Proof.Claims
end

section
/-! PROOFS. The data transfer family (O27, O28, O29, O30, O31, O32), in three parts.

Writing a register or a pair replaces what `OnlyReg` and `OnlyPair` say it replaces. A memory access and an access to a
register or M operand answer, in the plain addresses of the statements, a byte or a stored memory inside Memory and the
fault outside. The obligations put these together: STA, STAX and the stores to M are `retire_writeByte`, LDA and LDAX
are `retire_readByte_setReg_a`, and the moves into a register are `retire_setReg` on the operand's value. -/

namespace Sys2Proof.Machine

open State Sys2Proof.Claims

variable {s : State} {a : Word} {v : Byte} {n : Nat}

/-! ### Register writes (R12, R62) -/

theorem regOf_regs (s : State) (r : Reg) : regOf s.regs r = s.getReg r := by cases r <;> rfl

theorem onlyReg_setReg (s : State) (r : Reg) (v : Byte) : OnlyReg s.regs (s.setReg r v).regs r v := by
  intro q
  rw [regOf_regs, regOf_regs, getReg_setReg]

theorem setReg_eq_regs (s : State) (r : Reg) (v : Byte) : s.setReg r v = { s with regs := (s.setReg r v).regs } := by
  cases r <;> rfl

theorem setPair_eq_regs (s : State) (p : Pair) (v : Word) :
    s.setPair p v = { s with regs := (s.setPair p v).regs } := by
  cases p <;> rfl

theorem setPair_hl_joinBytes (s : State) (hi lo : Byte) :
    s.setPair .hl (joinBytes hi lo) = { s with regs := { s.regs with l := lo, h := hi } } := by
  rw [setPair, hiByte_joinBytes, loByte_joinBytes]
  rfl

theorem pairRegs_eq (p : Pair) : pairRegs p = (pairHigh p, pairLow p) := by cases p <;> rfl

theorem pairNat_regs (s : State) (p : Pair) : pairNat s.regs p = (s.getPair p).toNat := by
  rw [pairNat, pairRegs_eq, regOf_regs, regOf_regs, getPair, toNat_joinBytes]

theorem onlyPair_setPair (s : State) (p : Pair) (v : Word) : OnlyPair s.regs (s.setPair p v).regs p v.toNat := by
  refine ⟨by rw [pairNat_regs, getPair_setPair], fun q hhigh hlow => ?_⟩
  rw [pairRegs_eq] at hhigh hlow
  rw [regOf_regs, regOf_regs, getReg_setPair, if_neg hhigh, if_neg hlow]

/-! ### Memory and operand access in the plain addresses of the statements (R41, R42, R44, R62) -/

theorem inBounds_eq_false (ha : ¬ InMemory s a.toNat) : s.inBounds a = false :=
  Bool.eq_false_iff.mpr (mt inBounds_iff.mp ha)

theorem readByte_inside (ha : InMemory s a.toNat) : s.readByte a = .ok (Memory.read s.mem a.toNat) :=
  readByte_ok.mpr ⟨inBounds_iff.mpr ha, rfl⟩

theorem readByte_outside (ha : ¬ InMemory s a.toNat) : s.readByte a = .error .outOfBoundsAccess :=
  readByte_error.mpr ⟨inBounds_eq_false ha, rfl⟩

theorem writeByte_outside (ha : ¬ InMemory s a.toNat) : s.writeByte a v = .error .outOfBoundsAccess :=
  writeByte_error.mpr ⟨inBounds_eq_false ha, rfl⟩

theorem readOperand_of_readable {o : Operand} (h : OperandReadable s o) : s.readOperand o = .ok (operandValue s o) := by
  cases o with
  | reg r => exact congrArg Except.ok (regOf_regs s r).symm
  | m =>
    rw [operandValue, ← toNat_hl]
    exact readByte_inside (toNat_hl s ▸ h)

theorem readOperand_of_not_readable {o : Operand} (h : ¬ OperandReadable s o) :
    s.readOperand o = .error .outOfBoundsAccess := by
  cases o with
  | reg r => exact absurd trivial h
  | m => exact readByte_outside (toNat_hl s ▸ h)

theorem inBounds_word_iff (s : State) (a : Word) :
    (s.inBounds a ∧ s.inBounds (a + 1)) ↔ InMemory s a.toNat ∧ InMemory s (nextAddress a.toNat) := by
  have hnext : (a + 1).toNat = nextAddress a.toNat := BitVec.toNat_add a 1
  rw [inBounds_iff, inBounds_iff, hnext]
  rfl

theorem readWord_inside (h : InMemory s a.toNat ∧ InMemory s (nextAddress a.toNat)) :
    s.readWord a = .ok (joinBytes (Memory.read s.mem (nextAddress a.toNat)) (Memory.read s.mem a.toNat)) := by
  have hnext : (a + 1).toNat = nextAddress a.toNat := BitVec.toNat_add a 1
  rw [readWord_eq, if_pos ((inBounds_word_iff s a).mpr h), byteAt, byteAt, hnext]

theorem readWord_outside (h : ¬ (InMemory s a.toNat ∧ InMemory s (nextAddress a.toNat))) :
    s.readWord a = .error .outOfBoundsAccess := by
  rw [readWord_eq, if_neg (mt (inBounds_word_iff s a).mp h)]

theorem writeWord_outside {v : Word} (h : ¬ (InMemory s a.toNat ∧ InMemory s (nextAddress a.toNat))) :
    s.writeWord a v = .error .outOfBoundsAccess := by
  rw [writeWord_eq, if_neg (mt (inBounds_word_iff s a).mp h)]

theorem storedTwo_of_stored {s t : State} {a c : Nat} {v w : Byte} (h : Stored s t [(a, v), (c, w)]) :
    StoredTwo s.mem t.mem a v c w := by
  intro b
  rw [h b, getD_lookup_cons, getD_lookup_cons]
  rfl

/-! ### Instructions that are one store or one load -/

theorem retire_writeByte (hwf : s.mem.wf) (ha : InMemory s a.toNat) : ∃ m, StoredOne s.mem m a.toNat v ∧
    retire n (s.writeByte a v) = .next { s with mem := m, cycles := n } :=
  ⟨_, Memory.read_write hwf.1 a.toNat v, by rw [writeByte_ok.mpr ⟨inBounds_iff.mpr ha, rfl⟩]; rfl⟩

/-- A store to M (R62). -/
theorem retire_writeByte_hl (hwf : s.mem.wf) (hin : InMemory s (hlNat s)) : ∃ m, StoredOne s.mem m (hlNat s) v ∧
    retire n (s.writeByte s.hl v) = .next { s with mem := m, cycles := n } :=
  toNat_hl s ▸ retire_writeByte hwf (toNat_hl s ▸ hin)

theorem retire_writeByte_outside (ha : ¬ InMemory s a.toNat) :
    retire n (s.writeByte a v) = .fault .outOfBoundsAccess := by
  rw [writeByte_outside ha, retire]

theorem retire_readByte_setReg_a (ha : InMemory s a.toNat) :
    retire n (do let v ← s.readByte a; pure (s.setReg .a v)) =
      .next { s with regs := { s.regs with a := Memory.read s.mem a.toNat }, cycles := n } := by
  rw [readByte_inside ha]
  rfl

theorem retire_readByte_outside {k : Byte → Except Fault State} (ha : ¬ InMemory s a.toNat) :
    retire n (do let v ← s.readByte a; k v) = .fault .outOfBoundsAccess := by
  rw [readByte_outside ha]
  rfl

theorem retire_setReg (s : State) (n : Nat) (r : Reg) (v : Byte) : ∃ g, OnlyReg s.regs g r v ∧
    retire n (.ok (s.setReg r v)) = .next { s with regs := g, cycles := n } :=
  ⟨_, onlyReg_setReg s r v, by rw [setReg_eq_regs]; rfl⟩

theorem execMov_to_reg {src : Operand} (r : Reg) (h : OperandReadable s src) :
    ∃ g, OnlyReg s.regs g r (operandValue s src) ∧
      execMov (.reg r) src s = .next { s with regs := g, cycles := movCycles (.reg r) src } := by
  rw [execMov, readOperand_of_readable h]
  exact retire_setReg s _ r _

theorem execMov_to_reg_fault {src : Operand} (r : Reg) (h : ¬ OperandReadable s src) :
    execMov (.reg r) src s = .fault .outOfBoundsAccess := by
  rw [execMov, readOperand_of_not_readable h]
  rfl

theorem execMov_to_m (s : State) (r : Reg) : execMov .m (.reg r) s = retire 7 (s.writeByte s.hl (regOf s.regs r)) := by
  rw [regOf_regs]
  rfl

end Sys2Proof.Machine

namespace Sys2Proof.Claims

open Sys2Proof.Machine State

/-- Settles O27: the source operand is read, then a register or the byte at HL is written. -/
theorem movCopiesLoadsAndStores : Obligations.MovCopiesLoadsAndStores := by
  refine fun s hwf => ⟨fun dst src => execMov_to_reg (src := .reg src) dst trivial,
    fun hin r => ⟨execMov_to_reg (src := .m) r hin, ?_⟩,
    fun hout r => ⟨execMov_to_reg_fault (src := .m) r hout, ?_⟩⟩
  · rw [exec, execMov_to_m]
    exact retire_writeByte_hl hwf hin
  · rw [exec, execMov_to_m]
    exact retire_writeByte_outside (toNat_hl s ▸ hout)

/-- Settles O28: MVI is a register write or a store at HL. -/
theorem mviWritesItsImmediate : Obligations.MviWritesItsImmediate := fun s r d8 hwf =>
  ⟨retire_setReg s 7 r d8, retire_writeByte_hl hwf, fun hout => retire_writeByte_outside (toNat_hl s ▸ hout)⟩

/-- Settles O29: a write of the pair, or of SP. -/
theorem lxiLoadsAPairOrSp : Obligations.LxiLoadsAPairOrSp := by
  refine fun s d16 => ⟨fun p => ⟨_, onlyPair_setPair s p d16, ?_⟩, rfl⟩
  rw [exec, execLxi, setWide, setPair_eq_regs]
  rfl

/-- Settles O30: one store, or one load, at the address the pair holds. -/
theorem staxAndLdaxGoThroughThePair : Obligations.StaxAndLdaxGoThroughThePair := by
  intro s p hwf
  rw [← toNat_indexAddress]
  exact ⟨fun hin => ⟨retire_writeByte hwf hin, retire_readByte_setReg_a hin⟩,
    fun hout => ⟨retire_writeByte_outside hout, retire_readByte_outside hout⟩⟩

/-- Settles O31: one access to two bytes, the low one L's and the high one H's. -/
theorem shldAndLhldMoveHl : Obligations.ShldAndLhldMoveHl := by
  refine fun s a hwf => ⟨fun hin => ⟨?_, ?_⟩, fun hout => ⟨?_, ?_⟩⟩
  · obtain ⟨hlow, hhigh⟩ := (inBounds_word_iff s a).mpr hin
    have hwrite := (writeWord_ok (v16 := s.hl)).mpr ⟨hlow, hhigh, rfl⟩
    refine ⟨_, storedTwo_of_stored (writeWord_hl_stored hwf hwrite), ?_⟩
    rw [exec, execShld, hwrite]
    rfl
  · rw [exec, execLhld, readWord_inside hin]
    exact congrArg (fun u => retire 16 (.ok u)) (setPair_hl_joinBytes ..)
  · rw [exec, execShld, writeWord_outside hout, retire]
  · rw [exec, execLhld, readWord_outside hout]
    rfl

/-- Settles O32: one store, or one load, at the address. -/
theorem staAndLdaMoveA : Obligations.StaAndLdaMoveA := fun _ _ hwf =>
  ⟨fun hin => ⟨retire_writeByte hwf hin, retire_readByte_setReg_a hin⟩,
    fun hout => ⟨retire_writeByte_outside hout, retire_readByte_outside hout⟩⟩

end Sys2Proof.Claims
end

section
/-! PROOFS. The arithmetic family (O33, O34, O35, O36, O37, O38, O39, O40), in three parts.

First, the computations of the model are what R21, R22, R120, R121, R134, R136, R138, R139 and R141 say in plain numbers:
one lemma per computation, about any operand and any flags. Then the three shapes of instruction that write what such a
computation answers: an operation of A with a register or M operand, an update of such an operand in place, and a write of
a pair. The obligations put a computation into a shape. -/

namespace Sys2Proof.Machine

open State Sys2Proof.Claims

/-! ### Sign, Zero and Parity of a result (R21, R22) -/

theorem onesIn_eq (v : Byte) : onesIn v = ((List.range 8).filter (fun i => v.toNat.testBit i)).length := by
  rw [← List.countP_eq_length_filter]
  simp only [onesIn, bitValue, BitVec.getElem_eq_testBit_toNat, List.range, List.range.loop, List.countP_cons,
    List.countP_nil]
  omega

theorem szpOf_setSZP (v : Byte) (f : Flags) : SzpOf v (setSZP v f) := by
  refine ⟨BitVec.msb_eq_decide v, decide_eq_decide.mpr (BitVec.toNat_inj (y := 0)).symm, ?_⟩
  rw [← onesIn_eq]
  rfl

/-! ### Sums and differences of bytes (R120, R121, R134, R136) -/

theorem addResult_add8 (a b : Byte) (cin : Bool) (f : Flags) :
    AddResult a.toNat b.toNat (flagNat cin) (add8 a b cin f).1 (add8 a b cin f).2 :=
  ⟨BitVec.toNat_ofNat .., szpOf_setSZP .., rfl, rfl⟩

theorem subResult_sub8 (a b : Byte) (bin : Bool) (f : Flags) :
    SubResult a.toNat b.toNat (flagNat bin) (sub8 a b bin f).1 (sub8 a b bin f).2 := by
  refine ⟨?_, szpOf_setSZP .., rfl, rfl⟩
  have hbin : flagNat bin ≤ 1 := by cases bin <;> decide
  change (a - b - BitVec.ofNat 8 (flagNat bin)).toNat = _
  bv_omega

theorem inc8_result (v : Byte) (f : Flags) :
    (inc8 v f).1.toNat = (v.toNat + 1) % 256 ∧ SzpOf (inc8 v f).1 (inc8 v f).2 ∧
      (inc8 v f).2.auxCarry = decide (v.toNat % 16 = 15) ∧ (inc8 v f).2.carry = f.carry :=
  ⟨BitVec.toNat_add v 1, szpOf_setSZP .., rfl, rfl⟩

theorem dec8_result (v : Byte) (f : Flags) :
    (dec8 v f).1.toNat = (v.toNat + 255) % 256 ∧ SzpOf (dec8 v f).1 (dec8 v f).2 ∧
      (dec8 v f).2.auxCarry = decide (v.toNat % 16 = 0) ∧ (dec8 v f).2.carry = f.carry := by
  refine ⟨?_, szpOf_setSZP .., rfl, rfl⟩
  change (v - 1).toNat = _
  bv_omega

/-! ### Steps of a word (R138, R139) -/

theorem toNat_add_one (v : Word) : (v + 1).toNat = (v.toNat + 1) % 65536 := BitVec.toNat_add v 1

theorem toNat_sub_one (v : Word) : (v - 1).toNat = (v.toNat + 65535) % 65536 := by bv_omega

/-! ### The two steps of DAA (R141) -/

theorem daaLow_result (a : Byte) (f : Flags) :
    (daaLow a f).1.toNat = (if 9 < a.toNat % 16 ∨ f.auxCarry = true then (a.toNat + 6) % 256 else a.toNat) ∧
      (daaLow a f).2.carry = f.carry ∧
      ((9 < a.toNat % 16 ∨ f.auxCarry = true) → (daaLow a f).2.auxCarry = decide (9 ≤ a.toNat % 16)) ∧
      (¬ (9 < a.toNat % 16 ∨ f.auxCarry = true) → (daaLow a f).2.auxCarry = f.auxCarry) := by
  simp only [daaLow, lowNibble, gt_iff_lt]
  split
  next h => exact ⟨BitVec.toNat_add a 0x06, rfl, fun _ => rfl, absurd h⟩
  next h => exact ⟨rfl, rfl, (absurd · h), fun _ => rfl⟩

theorem daaHigh_result (a : Byte) (f : Flags) :
    (daaHigh a f).1.toNat = (if 9 < a.toNat / 16 ∨ f.carry = true then (a.toNat + 96) % 256 else a.toNat) ∧
      ((daaHigh a f).2.carry = true ↔ 9 < a.toNat / 16 ∨ f.carry = true) ∧ (daaHigh a f).2.auxCarry = f.auxCarry := by
  unfold daaHigh highNibble
  split
  next h => exact ⟨BitVec.toNat_add a 0x60, iff_of_true rfl h, rfl⟩
  next h => exact ⟨rfl, iff_of_false (h ∘ .inr) h, rfl⟩

theorem daaResult_daa8 (a : Byte) (f : Flags) : DaaResult a.toNat f (daa8 a f).1 (daa8 a f).2 := by
  obtain ⟨hlow, hlowCarry, hcorrected, hkept⟩ := daaLow_result a f
  obtain ⟨hhigh, hcarry, haux⟩ := daaHigh_result (daaLow a f).1 (daaLow a f).2
  rw [hlow, hlowCarry] at hhigh hcarry
  exact ⟨hhigh, szpOf_setSZP .., hcarry, fun h => haux.trans (hcorrected h), fun h => haux.trans (hkept h)⟩

/-! ### Operations of A with a register or M operand -/

variable {s : State}

theorem operandCycles_eq (o : Operand) (n k : Nat) : operandCycles o n k = cyclesFor o n k := by cases o <;> rfl

theorem withOperand_of_readable {src : Operand} {k : Byte → State} (h : OperandReadable s src) :
    withOperand src s k = .next ((k (operandValue s src)).setCycles (cyclesFor src 4 7)) := by
  rw [withOperand, readOperand_of_readable h, operandCycles_eq]
  rfl

theorem withOperand_of_not_readable {src : Operand} {k : Byte → State} (h : ¬ OperandReadable s src) :
    withOperand src s k = .fault .outOfBoundsAccess := by
  rw [withOperand, readOperand_of_not_readable h]
  rfl

/-! ### Updates of a register or M in place (INR, DCR) -/

theorem writeByte_inside {a : Word} {v : Byte} (h : InMemory s a.toNat) :
    s.writeByte a v = .ok (s.setMem (Memory.write s.mem a.toNat v)) :=
  writeByte_ok.mpr ⟨inBounds_iff.mpr h, rfl⟩

variable {k : Byte → Flags → Byte × Flags}

theorem updateOperand_reg (s : State) (r : Reg) (k : Byte → Flags → Byte × Flags) :
    updateOperand (.reg r) s k = .next { s with
      regs := (s.setReg r (k (regOf s.regs r) s.flags).1).regs
      flags := (k (regOf s.regs r) s.flags).2
      cycles := 5 } := by
  rw [regOf_regs]
  cases r <;> rfl

theorem updateOperand_m (h : InMemory s (hlNat s)) : updateOperand .m s k = .next { s with
    mem := Memory.write s.mem (hlNat s) (k (Memory.read s.mem (hlNat s)) s.flags).1
    flags := (k (Memory.read s.mem (hlNat s)) s.flags).2
    cycles := 10 } := by
  rw [← toNat_hl] at h ⊢
  simp only [updateOperand, readOperand, writeOperand, readByte_inside h, writeByte_inside h]
  rfl

theorem updateOperand_m_outside (h : ¬ InMemory s (hlNat s)) : updateOperand .m s k = .fault .outOfBoundsAccess := by
  rw [updateOperand, readOperand_of_not_readable (o := .m) h]
  rfl

/-! ### Writes of a pair (INX, DCX, DAD) -/

theorem retire_setPair (s : State) (n : Nat) (p : Pair) (v : Word) : ∃ g, OnlyPair s.regs g p v.toNat ∧
    retire n (.ok (s.setPair p v)) = .next { s with regs := g, cycles := n } :=
  ⟨_, onlyPair_setPair s p v, by rw [setPair_eq_regs]; rfl⟩

theorem toNat_getWide (s : State) (x : Wide) : (s.getWide x).toNat = wideNat s x := by
  cases x with
  | pair p => exact (pairNat_regs s p).symm
  | sp => rfl

end Sys2Proof.Machine

namespace Sys2Proof.Claims

open Sys2Proof.Machine State

/-- Settles O33: `add8` without a carry in, of A and the operand. -/
theorem addWritesSumAndFlags : Obligations.AddWritesSumAndFlags := fun _ =>
  ⟨fun _ h => ⟨_, _, addResult_add8 _ _ false _, withOperand_of_readable h⟩,
    fun _ h => withOperand_of_not_readable h, fun _ => ⟨_, _, addResult_add8 _ _ false _, rfl⟩⟩

/-- Settles O34: `add8` with Carry, of A and the operand. -/
theorem adcAddsTheCarry : Obligations.AdcAddsTheCarry := fun _ =>
  ⟨fun _ h => ⟨_, _, addResult_add8 .., withOperand_of_readable h⟩,
    fun _ h => withOperand_of_not_readable h, fun _ => ⟨_, _, addResult_add8 .., rfl⟩⟩

/-- Settles O35: `sub8` without a borrow in, of A and the operand. -/
theorem subWritesDifferenceAndBorrows : Obligations.SubWritesDifferenceAndBorrows := fun _ =>
  ⟨fun _ h => ⟨_, _, subResult_sub8 _ _ false _, withOperand_of_readable h⟩,
    fun _ h => withOperand_of_not_readable h, fun _ => ⟨_, _, subResult_sub8 _ _ false _, rfl⟩⟩

/-- Settles O36: `sub8` with Carry as the borrow, of A and the operand. -/
theorem sbbSubtractsTheBorrow : Obligations.SbbSubtractsTheBorrow := fun _ =>
  ⟨fun _ h => ⟨_, _, subResult_sub8 .., withOperand_of_readable h⟩,
    fun _ h => withOperand_of_not_readable h, fun _ => ⟨_, _, subResult_sub8 .., rfl⟩⟩

/-- Settles O37: `inc8` or `dec8` of the operand, written back in place. -/
theorem inrAndDcrStepByOne : Obligations.InrAndDcrStepByOne := by
  refine fun s hwf => ⟨fun r => ⟨?_, ?_⟩, fun hin => ⟨?_, ?_⟩,
    fun hout => ⟨updateOperand_m_outside hout, updateOperand_m_outside hout⟩⟩
  · obtain ⟨hval, hszp, haux, hcarry⟩ := inc8_result (regOf s.regs r) s.flags
    exact ⟨_, _, _, hval, onlyReg_setReg s r _, hszp, haux, hcarry, updateOperand_reg s r inc8⟩
  · obtain ⟨hval, hszp, haux, hcarry⟩ := dec8_result (regOf s.regs r) s.flags
    exact ⟨_, _, _, hval, onlyReg_setReg s r _, hszp, haux, hcarry, updateOperand_reg s r dec8⟩
  · obtain ⟨hval, hszp, haux, hcarry⟩ := inc8_result (Memory.read s.mem (hlNat s)) s.flags
    exact ⟨_, _, _, hval, Memory.read_write hwf.1 _ _, hszp, haux, hcarry, updateOperand_m hin⟩
  · obtain ⟨hval, hszp, haux, hcarry⟩ := dec8_result (Memory.read s.mem (hlNat s)) s.flags
    exact ⟨_, _, _, hval, Memory.read_write hwf.1 _ _, hszp, haux, hcarry, updateOperand_m hin⟩

/-- Settles O38: a write of the pair, or of SP, with its value stepped by one. -/
theorem inxAndDcxStepAPair : Obligations.InxAndDcxStepAPair := by
  refine fun s => ⟨fun p => ⟨?_, ?_⟩, ?_, ?_⟩
  · rw [pairNat_regs, ← toNat_add_one]
    exact retire_setPair ..
  · rw [pairNat_regs, ← toNat_sub_one]
    exact retire_setPair ..
  · have hsp : BitVec.ofNat 16 (s.sp.toNat + 1) = s.sp + 1 := BitVec.eq_of_toNat_eq (toNat_add_one s.sp).symm
    rw [hsp]
    rfl
  · have hsp : BitVec.ofNat 16 (s.sp.toNat + 65535) = s.sp - 1 := BitVec.eq_of_toNat_eq (toNat_sub_one s.sp).symm
    rw [hsp]
    rfl

/-- Settles O39: a write of HL with the sum, and of Carry with its overflow. -/
theorem dadAddsIntoHl : Obligations.DadAddsIntoHl := by
  intro s src
  rw [← toNat_hl, ← toNat_getWide]
  refine ⟨_, onlyPair_setPair s .hl (BitVec.ofNat 16 (s.hl.toNat + (s.getWide src).toNat)), ?_⟩
  rw [exec, execDad, add16, setPair_eq_regs]
  rfl

/-- Settles O40: A and the flags become what `daa8` answers. -/
theorem daaCorrectsInTwoSteps : Obligations.DaaCorrectsInTwoSteps := fun s =>
  ⟨_, _, daaResult_daa8 s.regs.a s.flags, rfl⟩

end Sys2Proof.Claims
end

section
/-! PROOFS. The logical family (O41, O42, O43).

`&&&`, `^^^` and `|||` combine two bytes bit by bit, `logic8` writes the flags of R150, and a byte xored with FF is 255
minus it. CMP is `subResult_sub8` without a borrow in, where Zero and Carry compare the two bytes. The obligations put these
into the operand rule `withOperand_of_readable`. -/

namespace Sys2Proof.Machine

open Sys2Proof.Claims

theorem bitwiseOf_and (x y : Byte) : BitwiseOf and x y (x &&& y) := fun i _ => by
  rw [BitVec.toNat_and, Nat.testBit_and]

theorem bitwiseOf_xor (x y : Byte) : BitwiseOf xor x y (x ^^^ y) := fun i _ => by
  rw [BitVec.toNat_xor, Nat.testBit_xor]

theorem bitwiseOf_or (x y : Byte) : BitwiseOf or x y (x ||| y) := fun i _ => by
  rw [BitVec.toNat_or, Nat.testBit_or]

theorem logicFlags_logic8 (v : Byte) (f : Flags) : LogicFlags v (logic8 v f) := ⟨szpOf_setSZP .., rfl, rfl⟩

theorem sub8_zero (a b : Byte) (f : Flags) : (sub8 a b false f).2.zero = decide (a = b) := by
  have hdiff : a - b - 0#8 = 0#8 ↔ a = b := by rw [BitVec.sub_zero, BitVec.sub_eq_iff_eq_add, BitVec.zero_add]
  exact decide_eq_decide.mpr hdiff

theorem sub8_carry (a b : Byte) (f : Flags) : (sub8 a b false f).2.carry = decide (a.toNat < b.toNat) := rfl

theorem xor_255 (a : Byte) : a ^^^ 0xFF = BitVec.ofNat 8 (255 - a.toNat) := by
  have hnot : a ^^^ 0xFF = ~~~a := BitVec.xor_allOnes
  rw [hnot]
  bv_omega

end Sys2Proof.Machine

namespace Sys2Proof.Claims

open Sys2Proof.Machine State

/-- Settles O41: each form writes A and `logic8` of A combined with the operand. -/
theorem logicCombinesBitByBit : Obligations.LogicCombinesBitByBit := fun _ =>
  ⟨fun _ h =>
    ⟨⟨_, _, bitwiseOf_and _ _, logicFlags_logic8 .., withOperand_of_readable h⟩,
      ⟨_, _, bitwiseOf_xor _ _, logicFlags_logic8 .., withOperand_of_readable h⟩,
      ⟨_, _, bitwiseOf_or _ _, logicFlags_logic8 .., withOperand_of_readable h⟩⟩,
    fun _ h => ⟨withOperand_of_not_readable h, withOperand_of_not_readable h, withOperand_of_not_readable h⟩,
    fun _ =>
    ⟨⟨_, _, bitwiseOf_and _ _, logicFlags_logic8 .., rfl⟩,
      ⟨_, _, bitwiseOf_xor _ _, logicFlags_logic8 .., rfl⟩,
      ⟨_, _, bitwiseOf_or _ _, logicFlags_logic8 .., rfl⟩⟩⟩

/-- Settles O42: the flags of `sub8` without a borrow in, its result dropped. -/
theorem compareWritesOnlyFlags : Obligations.CompareWritesOnlyFlags := fun _ =>
  ⟨fun _ h => ⟨_, _, subResult_sub8 _ _ false _, sub8_zero .., sub8_carry .., withOperand_of_readable h⟩,
    fun _ h => withOperand_of_not_readable h,
    fun _ => ⟨_, _, subResult_sub8 _ _ false _, sub8_zero .., sub8_carry .., rfl⟩⟩

/-- Settles O43: CMA writes A xored with FF, STC and CMC write Carry alone. -/
theorem complementAndCarryInstructions : Obligations.ComplementAndCarryInstructions := by
  refine fun s => ⟨?_, rfl, rfl⟩
  rw [← xor_255]
  rfl

end Sys2Proof.Claims
end

section
/-! PROOFS. The rotate family (O44, O45).

First, what the four rotates answer is what R170 to R173 say in plain numbers: the bit that comes in falls on a place the
shift left empty, so the two are added. Then a rotate is a turn by one place of a ring of bits: of A alone for RLC and RRC,
of Carry and A together for RAL and RAR. As many turns as the ring has bits are the identity, and a turn to the right undoes
one to the left, so such a program restores the ring. -/

namespace Sys2Proof.Machine

open Sys2Proof.Claims

/-! ### A and Carry after a rotate, in plain numbers (R170 to R173) -/

theorem getElem_bitAtFirst :
    ∀ (b : Bool) (i : Nat) (hi : i < 8), (BitVec.ofNat 8 (bitValue b))[i] = (decide (i = 0) && b) := by
  decide

theorem getElem_bitAtLast :
    ∀ (b : Bool) (i : Nat) (hi : i < 8), (BitVec.ofNat 8 (bitValue b * 128))[i] = (decide (i = 7) && b) := by
  decide

theorem bitValue_eq_flagNat (b : Bool) : bitValue b = flagNat b := rfl

theorem flagNat_lt_two (b : Bool) : flagNat b < 2 := by cases b <;> decide

theorem shiftLeft_or_bitAtFirst (a : Byte) (b : Bool) :
    a <<< 1 ||| BitVec.ofNat 8 (bitValue b) = BitVec.ofNat 8 (a.toNat * 2 % 256 + flagNat b) := by
  have hdisjoint : a <<< 1 &&& BitVec.ofNat 8 (bitValue b) = 0#8 := BitVec.eq_of_getElem_eq fun i hi => by
    cases i with
    | zero => simp
    | succ i => simp [getElem_bitAtFirst]
  have hbit := flagNat_lt_two b
  rw [← BitVec.add_eq_or_of_and_eq_zero _ _ hdisjoint, bitValue_eq_flagNat]
  bv_omega

theorem shiftRight_or_bitAtLast (a : Byte) (b : Bool) :
    a >>> 1 ||| BitVec.ofNat 8 (bitValue b * 128) = BitVec.ofNat 8 (a.toNat / 2 + flagNat b * 128) := by
  have hdisjoint : a >>> 1 &&& BitVec.ofNat 8 (bitValue b * 128) = 0#8 := BitVec.eq_of_getElem_eq fun i hi => by
    obtain rfl | hlast := eq_or_ne i 7
    · simp
    · simp [getElem_bitAtLast, hlast]
  have hbit := flagNat_lt_two b
  rw [← BitVec.add_eq_or_of_and_eq_zero _ _ hdisjoint, bitValue_eq_flagNat]
  bv_omega

theorem bit7_eq (a : Byte) : a[7] = decide (128 ≤ a.toNat) := BitVec.msb_eq_decide a

theorem bit0_eq (a : Byte) : a[0] = decide (a.toNat % 2 = 1) := by
  rw [BitVec.getElem_eq_testBit_toNat, Nat.testBit_zero]

theorem flagNat_decide (p : Prop) [Decidable p] : flagNat (decide p) = if p then 1 else 0 := by
  simp only [flagNat, decide_eq_true_eq]

theorem flagNat_bit7 (a : Byte) : flagNat a[7] = a.toNat / 128 := by
  rw [bit7_eq, flagNat_decide]
  split <;> omega

theorem flagNat_bit0 (a : Byte) : flagNat a[0] = a.toNat % 2 := by
  rw [bit0_eq, flagNat_decide]
  split <;> omega

theorem rotateLeft_eq (a : Byte) (f : Flags) : rotateLeft a f =
    (BitVec.ofNat 8 (a.toNat * 2 % 256 + a.toNat / 128), { f with carry := decide (128 ≤ a.toNat) }) := by
  rw [rotateLeft, shiftLeft_or_bitAtFirst, flagNat_bit7, bit7_eq]

theorem rotateRight_eq (a : Byte) (f : Flags) : rotateRight a f =
    (BitVec.ofNat 8 (a.toNat / 2 + a.toNat % 2 * 128), { f with carry := decide (a.toNat % 2 = 1) }) := by
  rw [rotateRight, shiftRight_or_bitAtLast, flagNat_bit0, bit0_eq]

theorem rotateLeftThroughCarry_eq (a : Byte) (f : Flags) : rotateLeftThroughCarry a f =
    (BitVec.ofNat 8 (a.toNat * 2 % 256 + flagNat f.carry), { f with carry := decide (128 ≤ a.toNat) }) := by
  rw [rotateLeftThroughCarry, shiftLeft_or_bitAtFirst, bit7_eq]

theorem rotateRightThroughCarry_eq (a : Byte) (f : Flags) : rotateRightThroughCarry a f =
    (BitVec.ofNat 8 (a.toNat / 2 + flagNat f.carry * 128), { f with carry := decide (a.toNat % 2 = 1) }) := by
  rw [rotateRightThroughCarry, shiftRight_or_bitAtLast, bit0_eq]

/-! ### Full turns of a bit vector -/

section Turn

variable {w : Nat}

theorem getMsbD_iterate_rotateLeft {i : Nat} (hi : i < w) (n : Nat) (v : BitVec w) :
    ((BitVec.rotateLeft · 1)^[n] v).getMsbD i = v.getMsbD ((n + i) % w) := by
  induction n generalizing v with
  | zero => rw [Function.iterate_zero_apply, Nat.zero_add, Nat.mod_eq_of_lt hi]
  | succ n ih =>
    have hlt : (n + i) % w < w := Nat.mod_lt _ (by omega)
    rw [Function.iterate_succ_apply, ih, BitVec.getMsbD_rotateLeft, decide_eq_true hlt, Bool.true_and, Nat.add_mod_mod,
      ← Nat.add_assoc, Nat.add_comm 1 n]

theorem rotateLeft_full_turn (v : BitVec w) : (BitVec.rotateLeft · 1)^[w] v = v :=
  BitVec.eq_of_getMsbD_eq fun i hi => by
    rw [getMsbD_iterate_rotateLeft hi, Nat.add_mod_left, Nat.mod_eq_of_lt hi]

theorem rotateRight_rotateLeft (v : BitVec w) (n : Nat) : (v.rotateLeft n).rotateRight n = v := by
  refine BitVec.eq_of_getElem_eq fun i hi => ?_
  have hplaces : n % w < w := Nat.mod_lt n (by omega)
  rw [BitVec.getElem_rotateRight]
  split
  next hlow => simp [BitVec.getElem_rotateLeft]
  next hhigh =>
    rw [BitVec.getElem_rotateLeft, dif_pos (by omega)]
    congr 1
    omega

/-- `w` turns to the right undo `w` turns to the left, which are the identity. -/
theorem rotateRight_full_turn (v : BitVec w) : (BitVec.rotateRight · 1)^[w] v = v := by
  have hinverse : Function.LeftInverse (BitVec.rotateRight · 1) (BitVec.rotateLeft · 1 : BitVec w → BitVec w) :=
    (rotateRight_rotateLeft · 1)
  have hback := hinverse.iterate w v
  rwa [rotateLeft_full_turn] at hback

/-! ### A rotate turns a ring of bits by one place -/

theorem rotateLeft_fst (a : Byte) (f : Flags) : (rotateLeft a f).1 = a.rotateLeft 1 := by
  have hlast : BitVec.ofNat 8 (flagNat a[7]) = a >>> 7 := by
    rw [flagNat_bit7]
    bv_omega
  exact congrArg (a <<< 1 ||| ·) hlast

theorem rotateRight_fst (a : Byte) (f : Flags) : (rotateRight a f).1 = a.rotateRight 1 := by
  have hfirst : BitVec.ofNat 8 (flagNat a[0] * 128) = a <<< 7 := by
    rw [flagNat_bit0]
    bv_omega
  exact congrArg (a >>> 1 ||| ·) hfirst

theorem cons_rotateLeftThroughCarry (a : Byte) (f : Flags) :
    BitVec.cons (rotateLeftThroughCarry a f).2.carry (rotateLeftThroughCarry a f).1 =
      (BitVec.cons f.carry a).rotateLeft 1 := by
  simp only [rotateLeftThroughCarry]
  refine BitVec.eq_of_getElem_eq fun i hi => ?_
  obtain rfl | hcarry := eq_or_ne i 8
  · simp [BitVec.getElem_rotateLeft, BitVec.getElem_cons]
  obtain rfl | hfirst := eq_or_ne i 0
  · simp [BitVec.getElem_rotateLeft, BitVec.getElem_cons, getElem_bitAtFirst]
  · have hinside : i ≠ 9 := by omega
    simp [BitVec.getElem_rotateLeft, BitVec.getElem_cons, getElem_bitAtFirst, hcarry, hfirst, hinside]

theorem cons_rotateRightThroughCarry (a : Byte) (f : Flags) :
    BitVec.cons (rotateRightThroughCarry a f).2.carry (rotateRightThroughCarry a f).1 =
      (BitVec.cons f.carry a).rotateRight 1 := by
  simp only [rotateRightThroughCarry]
  refine BitVec.eq_of_getElem_eq fun i hi => ?_
  obtain rfl | hcarry := eq_or_ne i 8
  · simp [BitVec.getElem_rotateRight, BitVec.getElem_cons]
  obtain rfl | hlast := eq_or_ne i 7
  · simp [BitVec.getElem_rotateRight, BitVec.getElem_cons, getElem_bitAtLast]
  · have hinside : i < 8 := by omega
    have hnext : 1 + i < 8 := by omega
    simp [BitVec.getElem_rotateRight, BitVec.getElem_cons, getElem_bitAtLast, hinside, hcarry, hlast, hnext, hnext.ne]

/-! ### Programs of rotates -/

/-- The ring of RLC and RRC: the eight bits of A. -/
def accRing (s : State) : BitVec 8 := s.regs.a

/-- The ring of RAL and RAR: Carry, above the eight bits of A. -/
def carryRing (s : State) : BitVec 9 := BitVec.cons s.flags.carry s.regs.a

/-- Run from any state, `is` completes, writes no register but A and no flag but Carry, and changes by `turn` the bits that
`ring` reads. -/
def Turns (ring : State → BitVec w) (is : List Instr) (turn : BitVec w → BitVec w) : Prop :=
  ∀ s, ∃ t, execAll is s = .next t ∧ t.regs = { s.regs with a := t.regs.a } ∧
    t.flags = { s.flags with carry := t.flags.carry } ∧ ring t = turn (ring s)

variable {ring : State → BitVec w} {i : Instr} {is : List Instr} {f g : BitVec w → BitVec w}

theorem execAll_singleton (i : Instr) (s : State) : execAll [i] s = exec i s := by
  rw [execAll]
  cases exec i s <;> rfl

theorem turns_nil : Turns ring [] id := fun s => ⟨s, rfl, rfl, rfl, rfl⟩

theorem Turns.cons (hi : Turns ring [i] f) (his : Turns ring is g) : Turns ring (i :: is) (g ∘ f) := by
  intro s
  obtain ⟨t, ht, htregs, htflags, htring⟩ := hi s
  obtain ⟨u, hu, huregs, huflags, huring⟩ := his t
  rw [execAll_singleton] at ht
  refine ⟨u, (execAll_cons ht).trans hu, ?_, ?_, ?_⟩
  · rw [huregs, htregs]
  · rw [huflags, htflags]
  · rw [huring, htring, Function.comp_apply]

theorem Turns.replicate (hi : Turns ring [i] f) (n : Nat) : Turns ring (List.replicate n i) f^[n] := by
  induction n with
  | zero => exact turns_nil
  | succ n ih => exact hi.cons ih

theorem turns_rlc : Turns accRing [.rlc] (BitVec.rotateLeft · 1) := fun s =>
  ⟨_, rfl, rfl, rfl, rotateLeft_fst _ s.flags⟩

theorem turns_rrc : Turns accRing [.rrc] (BitVec.rotateRight · 1) := fun s =>
  ⟨_, rfl, rfl, rfl, rotateRight_fst _ s.flags⟩

theorem turns_ral : Turns carryRing [.ral] (BitVec.rotateLeft · 1) := fun _ =>
  ⟨_, rfl, rfl, rfl, cons_rotateLeftThroughCarry ..⟩

theorem turns_rar : Turns carryRing [.rar] (BitVec.rotateRight · 1) := fun _ =>
  ⟨_, rfl, rfl, rfl, cons_rotateRightThroughCarry ..⟩

theorem Turns.restores_acc {turn : BitVec 8 → BitVec 8} (h : Turns accRing is turn) (hturn : ∀ v, turn v = v)
    (s : State) :
    ∃ t, execAll is s = .next t ∧ t.regs = s.regs ∧ t.flags = { s.flags with carry := t.flags.carry } := by
  obtain ⟨t, ht, hregs, hflags, hring⟩ := h s
  have hacc : t.regs.a = s.regs.a := hring.trans (hturn _)
  exact ⟨t, ht, by rw [hregs, hacc], hflags⟩

theorem Turns.restores_acc_carry {turn : BitVec 9 → BitVec 9} (h : Turns carryRing is turn) (hturn : ∀ v, turn v = v)
    (s : State) : ∃ t, execAll is s = .next t ∧ t.regs = s.regs ∧ t.flags = s.flags := by
  obtain ⟨t, ht, hregs, hflags, hring⟩ := h s
  rw [hturn, carryRing, carryRing] at hring
  have hacc : t.regs.a = s.regs.a := by simpa using congrArg (BitVec.setWidth 8) hring
  have hcarry : t.flags.carry = s.flags.carry := by simpa using congrArg BitVec.msb hring
  exact ⟨t, ht, by rw [hregs, hacc], by rw [hflags, hcarry]⟩

end Turn

end Sys2Proof.Machine

namespace Sys2Proof.Claims

open Sys2Proof.Machine State

/-- Settles O44: each rotate writes A and Carry as its function answers them in plain numbers. -/
theorem rotatesMoveOneBit : Obligations.RotatesMoveOneBit := by
  refine fun s => ⟨?_, ?_, ?_, ?_⟩
  · rw [exec, execRlc, rotateLeft_eq]; rfl
  · rw [exec, execRrc, rotateRight_eq]; rfl
  · rw [exec, execRal, rotateLeftThroughCarry_eq]; rfl
  · rw [exec, execRar, rotateRightThroughCarry_eq]; rfl

/-- Settles O45: the programs are full turns of their ring, or a turn and its inverse. -/
theorem fullRotationsRestore : Obligations.FullRotationsRestore := by
  refine fun s => ⟨fun is his => ?_, fun i hi => ?_⟩
  · simp only [List.mem_cons, List.not_mem_nil, or_false] at his
    obtain rfl | rfl | rfl := his
    · exact (turns_rlc.replicate 8).restores_acc rotateLeft_full_turn s
    · exact (turns_rrc.replicate 8).restores_acc rotateRight_full_turn s
    · exact (turns_rlc.cons turns_rrc).restores_acc (rotateRight_rotateLeft · 1) s
  · simp only [List.mem_cons, List.not_mem_nil, or_false] at hi
    obtain rfl | rfl := hi
    · exact (turns_ral.replicate 9).restores_acc_carry rotateLeft_full_turn s
    · exact (turns_rar.replicate 9).restores_acc_carry rotateRight_full_turn s

end Sys2Proof.Claims
end

section
/-! PROOFS. The branch family (O46, O47, O48, O49, O50), in three parts.

A conditional instruction is its unconditional operation under the truth of its condition. The operation it takes, a call
(also RST's) or a return, answers in the plain addresses of the statements: inside Memory the return address pushed or the
target popped, outside the fault. A return after a call pops what the call pushed. -/

namespace Sys2Proof.Machine

open State Sys2Proof.Claims

variable {s : State} {a : Word} {n : Nat} {cond : Cond}

/-! ### Conditional instructions, taken and untaken (R64, R184, R194, R204) -/

theorem condHolds_eq_condTrue (f : Flags) (cond : Cond) : condHolds f cond = condTrue f cond := by
  cases cond <;> simp [condHolds, condTrue]

theorem exec_jumpOn (cond : Cond) (a : Word) (s : State) : exec (jumpOn cond a) s = jumpIf cond a s := by
  cases cond <;> rfl

theorem exec_callOn (cond : Cond) (a : Word) (s : State) : exec (callOn cond a) s = callIf cond a s := by
  cases cond <;> rfl

theorem exec_returnOn (cond : Cond) (s : State) : exec (returnOn cond) s = returnIf cond s := by
  cases cond <;> rfl

theorem exec_callOn_taken (h : condTrue s.flags cond = true) : exec (callOn cond a) s = retire 17 (s.callTo a) := by
  rw [exec_callOn, callIf, condHolds_eq_condTrue, if_pos h]

theorem exec_callOn_untaken (h : condTrue s.flags cond = false) :
    exec (callOn cond a) s = .next { s with cycles := 11 } := by
  rw [exec_callOn, callIf, condHolds_eq_condTrue, if_neg (Bool.eq_false_iff.mp h)]
  rfl

theorem exec_returnOn_taken (h : condTrue s.flags cond = true) : exec (returnOn cond) s = retire 11 s.returnFrom := by
  rw [exec_returnOn, returnIf, condHolds_eq_condTrue, if_pos h]

theorem exec_returnOn_untaken (h : condTrue s.flags cond = false) :
    exec (returnOn cond) s = .next { s with cycles := 5 } := by
  rw [exec_returnOn, returnIf, condHolds_eq_condTrue, if_neg (Bool.eq_false_iff.mp h)]
  rfl

/-! ### Pushes and pops in the plain addresses of the statements (R181, R182) -/

theorem hiByte_eq_ofNat (v : Word) : hiByte v = BitVec.ofNat 8 (v.toNat / 256) := by
  rw [← toNat_hiByte, BitVec.ofNat_toNat, BitVec.setWidth_eq]

theorem loByte_eq_ofNat (v : Word) : loByte v = BitVec.ofNat 8 (v.toNat % 256) := by
  rw [← toNat_loByte, BitVec.ofNat_toNat, BitVec.setWidth_eq]

theorem pushed_pushedMem (hwf : s.mem.wf) (v : Word) : Pushed s (s.pushedMem v) (hiByte v) (loByte v) :=
  storedTwo_of_stored (stored_pushedMem (t := s.setMem (s.pushedMem v)) hwf rfl)

theorem pushed_pushedMem_pc (hwf : s.mem.wf) :
    Pushed s (s.pushedMem s.pc) (BitVec.ofNat 8 (s.pc.toNat / 256)) (BitVec.ofNat 8 (s.pc.toNat % 256)) :=
  hiByte_eq_ofNat s.pc ▸ loByte_eq_ofNat s.pc ▸ pushed_pushedMem hwf s.pc

theorem joinBytes_popped (s : State) :
    joinBytes (Memory.read s.mem (nextAddress s.sp.toNat)) (Memory.read s.mem s.sp.toNat) =
      BitVec.ofNat 16 (poppedNat s) := by
  rw [poppedNat, ← toNat_joinBytes, BitVec.ofNat_toNat, BitVec.setWidth_eq]

theorem pop16_inside (h : Poppable s) : s.pop16 = .ok (BitVec.ofNat 16 (poppedNat s), s.setSp (s.sp + 2)) := by
  rw [pop16, readWord_inside h, joinBytes_popped]
  rfl

theorem pop16_outside (h : ¬ Poppable s) : s.pop16 = .error .outOfBoundsAccess := by
  rw [pop16, readWord_outside h]
  rfl

/-! ### Calls and returns (R193, R203) -/

theorem retire_callTo (h : Pushable s) : retire n (s.callTo a) =
    .next { s with mem := s.pushedMem s.pc, sp := s.sp - 2, pc := a, cycles := n } := by
  rw [callTo_eq, if_pos ((pushable_iff s).mp h)]
  rfl

theorem retire_callTo_outside (h : ¬ Pushable s) : retire n (s.callTo a) = .fault .outOfBoundsAccess := by
  rw [callTo_eq, if_neg (mt (pushable_iff s).mpr h), retire]

theorem retire_returnFrom (h : Poppable s) : retire n s.returnFrom =
    .next { s with pc := BitVec.ofNat 16 (poppedNat s), sp := s.sp + 2, cycles := n } := by
  rw [returnFrom, pop16_inside h]
  rfl

theorem retire_returnFrom_outside (h : ¬ Poppable s) : retire n s.returnFrom = .fault .outOfBoundsAccess := by
  rw [returnFrom, pop16_outside h]
  rfl

/-- From memory and SP as a call left them RET goes back to where the call came from (R193, R203). -/
theorem exec_ret_of_called {u : State} (hwf : s.mem.wf) (hpush : Pushable s) (hmem : u.mem = s.pushedMem s.pc)
    (hsp : u.sp = s.sp - 2) (hconfig : u.config = s.config) :
    exec .ret u = .next { u with pc := s.pc, sp := s.sp, cycles := 10 } := by
  rw [exec, execRet, returnFrom, pop16_of_pushed hwf hpush hmem hsp hconfig]
  rfl

end Sys2Proof.Machine

namespace Sys2Proof.Claims

open Sys2Proof.Machine State

/-- Settles O46: a conditional jump writes PC under the truth of its condition. -/
theorem jumpsGoToTheirTarget : Obligations.JumpsGoToTheirTarget := by
  refine fun s a => ⟨rfl, fun cond => ?_⟩
  rw [exec_jumpOn, jumpIf, condHolds_eq_condTrue]
  split <;> rfl

/-- Settles O47: CALL and every taken conditional call are one call, of 17 cycles. -/
theorem callsPushTheReturnAddress : Obligations.CallsPushTheReturnAddress := fun s _ hwf =>
  ⟨fun hpush => ⟨s.pushedMem s.pc, pushed_pushedMem_pc hwf, retire_callTo hpush,
      fun _ htaken => (exec_callOn_taken htaken).trans (retire_callTo hpush)⟩,
    fun hout => ⟨retire_callTo_outside hout,
      fun _ htaken => (exec_callOn_taken htaken).trans (retire_callTo_outside hout)⟩,
    fun _ => exec_callOn_untaken⟩

/-- Settles O48: RET and every taken conditional return are one return, of 10 and of 11 cycles. -/
theorem returnsPopTheirTarget : Obligations.ReturnsPopTheirTarget := fun _ =>
  ⟨fun hpop => ⟨retire_returnFrom hpop, fun _ htaken => (exec_returnOn_taken htaken).trans (retire_returnFrom hpop)⟩,
    fun hout => ⟨retire_returnFrom_outside hout,
      fun _ htaken => (exec_returnOn_taken htaken).trans (retire_returnFrom_outside hout)⟩,
    fun _ => exec_returnOn_untaken⟩

/-- Settles O49: PCHL writes PC alone, and RST n is the call of `8 * n`. -/
theorem pchlAndRstTransferControl : Obligations.PchlAndRstTransferControl := by
  refine fun s n hwf => ⟨?_, fun hpush => ⟨s.pushedMem s.pc, pushed_pushedMem_pc hwf, ?_⟩, retire_callTo_outside⟩
  · rw [ofNat_hlNat]
    rfl
  · rw [exec, execRst, retire_callTo hpush, rstTarget, Nat.mul_comm]

/-- Settles O50: RET runs from the memory and SP that CALL left. -/
theorem retUndoesCall : Obligations.RetUndoesCall := fun s a hwf hpush =>
  have hcall : exec (.call a) s = _ := retire_callTo hpush
  have hret := exec_ret_of_called (u := { s with mem := s.pushedMem s.pc, sp := s.sp - 2, pc := a, cycles := 17 })
    hwf hpush rfl rfl rfl
  ⟨_, (execAll_cons hcall).trans (execAll_cons hret), rfl, rfl, rfl, rfl⟩

end Sys2Proof.Claims
end

section
/-! PROOFS. The stack and exchange family (O51, O52, O55, O54), in three parts.

The word a stack operand holds, and a write of PSW, are said in the registers and the flags of the statements. PUSH and POP
are then said of any operand: a push of the word it holds, a write of it with the word popped. XTHL reads the two bytes at
SP, then stores HL over them. -/

namespace Sys2Proof.Machine

open State Sys2Proof.Claims

variable {s : State} {a : Word} {x : StackReg}

/-! ### The operands as the statements name them (R12, R20, R23) -/

theorem getStackReg_pair (s : State) (p : Pair) :
    s.getStackReg (.pair p) = joinBytes (regOf s.regs (pairRegs p).1) (regOf s.regs (pairRegs p).2) := by
  rw [pairRegs_eq, regOf_regs, regOf_regs]
  rfl

theorem getStackReg_psw (s : State) : s.getStackReg .psw = joinBytes s.regs.a (flagsByte s.flags) := by
  rw [← packFlags_eq_flagsByte]
  rfl

theorem setPsw_joinBytes (s : State) (hi lo : Byte) :
    s.setPsw (joinBytes hi lo) = { s with regs := { s.regs with a := hi }, flags := unpackFlags lo } := by
  rw [setPsw, hiByte_joinBytes, loByte_joinBytes]
  rfl

/-! ### PUSH and POP of any operand (R220 to R223) -/

theorem exec_push_pushed {hi lo : Byte} (hwf : s.mem.wf) (hpush : Pushable s)
    (hvalue : s.getStackReg x = joinBytes hi lo) : ∃ m, Pushed s m hi lo ∧
      exec (.push x) s = .next { s with mem := m, sp := s.sp - 2, cycles := 11 } := by
  refine ⟨s.pushedMem (s.getStackReg x), ?_, exec_push x hpush⟩
  have hpushed := pushed_pushedMem hwf (joinBytes hi lo)
  rwa [hiByte_joinBytes, loByte_joinBytes, ← hvalue] at hpushed

theorem exec_push_outside (x : StackReg) (hout : ¬ Pushable s) : exec (.push x) s = .fault .outOfBoundsAccess := by
  rw [exec, execPush, push16_eq, if_neg (mt (pushable_iff s).mpr hout), retire]

theorem exec_pop_inside (x : StackReg) (hpop : Poppable s) : exec (.pop x) s =
    .next (((s.setSp (s.sp + 2)).setStackReg x (BitVec.ofNat 16 (poppedNat s))).setCycles 10) := by
  rw [exec, execPop, pop16_inside hpop]
  rfl

theorem exec_pop_outside (x : StackReg) (hout : ¬ Poppable s) : exec (.pop x) s = .fault .outOfBoundsAccess := by
  rw [exec, execPop, pop16_outside hout]
  rfl

theorem toNat_ofNat_poppedNat (s : State) : (BitVec.ofNat 16 (poppedNat s)).toNat = poppedNat s := by
  rw [← joinBytes_popped, toNat_joinBytes, poppedNat]

/-! ### A store of HL in two bytes (R225) -/

theorem writeWord_hl_inside (hwf : s.mem.wf) (hin : InMemory s a.toNat ∧ InMemory s (nextAddress a.toNat)) :
    ∃ m, StoredTwo s.mem m a.toNat s.regs.l (nextAddress a.toNat) s.regs.h ∧
      s.writeWord a s.hl = .ok (s.setMem m) := by
  obtain ⟨hlow, hhigh⟩ := (inBounds_word_iff s a).mpr hin
  have hwrite := (writeWord_ok (v16 := s.hl)).mpr ⟨hlow, hhigh, rfl⟩
  exact ⟨_, storedTwo_of_stored (writeWord_hl_stored hwf hwrite), hwrite⟩

end Sys2Proof.Machine

namespace Sys2Proof.Claims

open Sys2Proof.Machine State

/-- Settles O51: a push of the word the operand holds. -/
theorem pushStoresBothBytes : Obligations.PushStoresBothBytes := fun s hwf =>
  ⟨fun hpush => ⟨fun p => exec_push_pushed hwf hpush (getStackReg_pair s p),
      exec_push_pushed hwf hpush (getStackReg_psw s)⟩,
    fun hout x => exec_push_outside x hout⟩

/-- Settles O52: a write of the pair, or of A and the flags, with the word popped. -/
theorem popLoadsBothBytes : Obligations.PopLoadsBothBytes := by
  refine fun s => ⟨fun hpop => ⟨fun p => ?_, ?_⟩, fun hout x => exec_pop_outside x hout⟩
  · have hpair := onlyPair_setPair (s.setSp (s.sp + 2)) p (BitVec.ofNat 16 (poppedNat s))
    rw [toNat_ofNat_poppedNat] at hpair
    refine ⟨_, hpair, ?_⟩
    rw [exec_pop_inside _ hpop, setStackReg, setPair_eq_regs]
    rfl
  · rw [exec_pop_inside _ hpop, setStackReg, ← joinBytes_popped, setPsw_joinBytes]
    rfl

/-- Settles O55: the bytes are read before HL is stored over them. -/
theorem xthlExchangesWithTheStack : Obligations.XthlExchangesWithTheStack := by
  refine fun s hwf => ⟨fun hin => ?_, fun hout => ?_⟩
  · obtain ⟨m, hstored, hwrite⟩ := writeWord_hl_inside hwf hin
    refine ⟨m, hstored, ?_⟩
    rw [exec, execXthl, hwrite, readWord_inside hin]
    exact congrArg (fun u => retire 18 (.ok u)) (setPair_hl_joinBytes ..)
  · rw [exec, execXthl, readWord_outside hout]
    rfl

/-- Settles O54: XCHG writes to each pair the value the other held, and HL is one word. -/
theorem xchgAndSphlMoveHl : Obligations.XchgAndSphlMoveHl := by
  refine fun s => ⟨?_, ?_⟩
  · rw [exec, execXchg, getPair, getPair, setPair_hl_joinBytes, setPair, hiByte_joinBytes, loByte_joinBytes]
    rfl
  · rw [ofNat_hlNat]
    rfl

end Sys2Proof.Claims
end

section
/-! PROOFS. The input, output and control family (O56, O57, O59, O58, O60), in two parts.

IN and OUT answer what their one hook call answers, so each is said once for a bound hook and once for an absent one. A Step
that accepts a request executes its vector, which with the INTE that EI wrote is the Step after EI. -/

namespace Sys2Proof.Machine

open State

variable {s : State} {v : Byte}

/-! ### The port hooks, bound and absent (R245, R246, R262) -/

theorem portAnswer_cons {rest : List Byte} (h : s.portAnswers = v :: rest) (port : Byte) : s.portAnswer port = v := by
  rw [portAnswer, h]

theorem portAnswer_nil (h : s.portAnswers = []) (port : Byte) :
    s.portAnswer port = Config.portIn s.portEvents port := by
  rw [portAnswer, h]

theorem exec_inp_bound (h : s.config.readPortBound = true) (port : Byte) : exec (.inp port) s = .next { s with
    regs := { s.regs with a := s.portAnswer port }, portAnswers := s.portAnswers.tail,
    portEvents := s.portEvents ++ [.read port (s.portAnswer port)], cycles := 10 } := by
  rw [exec, execInp, portRead_ok.mpr ⟨h, rfl⟩]
  rfl

theorem exec_inp_absent (h : s.config.readPortBound = false) (port : Byte) :
    exec (.inp port) s = .fault .missingPortHandler := by
  rw [exec, execInp, portRead, if_neg (Bool.eq_false_iff.mp h)]
  rfl

theorem exec_out_bound (h : s.config.writePortBound = true) (port : Byte) : exec (.out port) s =
    .next { s with portEvents := s.portEvents ++ [.write port s.regs.a], cycles := 10 } := by
  rw [exec, execOut, portWrite_ok.mpr ⟨h, rfl⟩]
  rfl

theorem exec_out_absent (h : s.config.writePortBound = false) (port : Byte) :
    exec (.out port) s = .fault .missingPortHandler := by
  rw [exec, execOut, portWrite, if_neg (Bool.eq_false_iff.mp h), retire]

/-! ### EI, and a Step that accepts the pending request (R248, R265) -/

theorem exec_ei (s : State) : exec .ei s = .next { s with inte := true, cycles := 4 } := rfl

theorem State.currentOpcode_of_pending (hinte : s.inte = true) (hpending : s.pending = some v) :
    s.currentOpcode = .ok (v, s.setPending none) := by
  rw [currentOpcode, (acceptInterrupt_some (r := (v, s.setPending none))).mpr ⟨hinte, hpending, rfl⟩]

theorem step_of_pending (hinte : s.inte = true) (hpending : s.pending = some v) :
    step s = exec (decodeInstr v s.z s.w) (s.setPending none) := by
  rw [step, currentOpcode_of_pending hinte hpending]
  rfl

end Sys2Proof.Machine

namespace Sys2Proof.Claims

open Sys2Proof.Machine State

/-- Settles O56: one call of a bound hook, answered from the head of the list or, where it is empty, by the free value. -/
theorem inTakesTheAnswerIntoA : Obligations.InTakesTheAnswerIntoA := by
  refine fun s port => ⟨fun hbound => ⟨fun v rest hanswers => ?_, fun hanswers => ?_⟩, fun habsent => ?_⟩
  · rw [exec_inp_bound hbound, portAnswer_cons hanswers, hanswers, List.tail_cons]
  · rw [exec_inp_bound hbound, portAnswer_nil hanswers, hanswers, List.tail_nil]
  · exact exec_inp_absent habsent port

/-- Settles O57: one call of a bound hook, and nothing else of the state. -/
theorem outSendsA : Obligations.OutSendsA := fun _ port =>
  ⟨fun hbound => exec_out_bound hbound port, fun habsent => exec_out_absent habsent port⟩

/-- Settles O59: EI writes INTE and keeps the request and the latches, so the next Step accepts the request. -/
theorem eiTakesEffectAtOnce : Obligations.EiTakesEffectAtOnce := by
  refine fun s => ⟨exec_ei s, fun v t hpending hei => ?_⟩
  obtain rfl : { s with inte := true, cycles := 4 } = t := Host.Outcome.next.inj ((exec_ei s).symm.trans hei)
  exact step_of_pending rfl hpending

/-- Settles O58: NOP retires the state as it is, DI the state with INTE cleared. -/
theorem nopAndDi : Obligations.NopAndDi := fun _ => ⟨rfl, rfl⟩

/-- Settles O60: the rules of HLT and of the undefined bytes look at no state. -/
theorem hltAndUndefinedBytesFault : Obligations.HltAndUndefinedBytesFault := fun _ => ⟨rfl, fun _ => rfl⟩

end Sys2Proof.Claims
end

section
/-! PROOFS. The exception and host family (O11, O13, O7, O8, O25), in three parts.

`UnimplementedOpcode` has one cause, an instruction that the decoder gives for the thirteen bytes alone, and these bytes are
instructions of one byte; so a Step raises it exactly when it dispatches one of them. With every address in Memory and both
hooks bound the other two faults have no cause, and what completes was retired with one of nine counts. An accepted vector
is dispatched by `step_of_pending`; a `Load` is a write of many bytes. -/

namespace Sys2Proof.Machine

open State Sys2Proof.Claims

variable {s t : State} {i : Instr} {op : Byte} {f : Fault}

/-! ### The instructions that raise `UnimplementedOpcode`, and their bytes (R241, R242, R261) -/

/-- HLT and the undefined instructions. -/
def RaisesUnimplemented (i : Instr) : Prop := i = .hlt ∨ ∃ byte, i = .undefined byte

theorem exec_unimplemented_iff : exec i s = .fault .unimplementedOpcode ↔ RaisesUnimplemented i := by
  constructor
  · intro h
    cases exec_fault h with
    | unimplemented hi => exact hi
  · rintro (rfl | ⟨byte, rfl⟩) <;> rfl

/-- The thirteen bytes are those of HLT and of the undefined instructions. -/
theorem mem_faultingBytes_iff :
    op ∈ faultingBytes ↔ op = opcodeOf .hlt ∨ ∃ byte, op = opcodeOf (.undefined byte) := by
  constructor
  · have hcodes : faultingBytes = [.x08, .x10, .x18, .x20, .x28, .x30, .x38].map undefinedByteCode ++
        opcodeOf .hlt :: [.xCB, .xD9, .xDD, .xED, .xFD].map undefinedByteCode := rfl
    rw [hcodes, List.mem_append, List.mem_cons, List.mem_map, List.mem_map]
    rintro (⟨byte, -, rfl⟩ | rfl | ⟨byte, -, rfl⟩)
    · exact .inr ⟨byte, rfl⟩
    · exact .inl rfl
    · exact .inr ⟨byte, rfl⟩
  · rintro (rfl | ⟨byte, rfl⟩)
    · decide
    · cases byte <;> decide

theorem decodeInstr_hlt (z w : Byte) : decodeInstr (opcodeOf .hlt) z w = .hlt := rfl

theorem decodeInstr_undefined (byte : UndefinedByte) (z w : Byte) :
    decodeInstr (opcodeOf (.undefined byte)) z w = .undefined byte := by
  cases byte <;> rfl

/-- A faulting byte decodes to a faulting instruction; and since the decoder keeps the opcode byte, no other does. -/
theorem raisesUnimplemented_decodeInstr (op z w : Byte) :
    RaisesUnimplemented (decodeInstr op z w) ↔ op ∈ faultingBytes := by
  rw [mem_faultingBytes_iff]
  constructor
  · intro h
    rw [← opcodeOf_decodeInstr op z w]
    rcases h with hhlt | ⟨byte, hundefined⟩
    · exact .inl (congrArg opcodeOf hhlt)
    · exact .inr ⟨byte, congrArg opcodeOf hundefined⟩
  · rintro (rfl | ⟨byte, rfl⟩)
    · exact .inl (decodeInstr_hlt z w)
    · exact .inr ⟨byte, decodeInstr_undefined byte z w⟩

theorem opLength_of_mem_faultingBytes : ∀ op ∈ faultingBytes, opLength op = 1 := by decide

/-! ### The Steps that raise `UnimplementedOpcode` (R261, R264) -/

/-- The Step dispatches the byte `op`: the accepted vector, or the byte fetched at PC (R264). -/
def Dispatches (s : State) (op : Byte) : Prop := ∃ u, s.currentOpcode = .ok (op, u)

theorem step_unimplemented_iff : step s = .fault .unimplementedOpcode ↔ ∃ op ∈ faultingBytes, Dispatches s op := by
  unfold step Dispatches
  split
  next op u hop =>
    rw [exec_unimplemented_iff, raisesUnimplemented_decodeInstr]
    simp [hop]
  next f hf =>
    cases currentOpcode_error hf
    simp [hf]

theorem dispatches_of_pending {v : Byte} (hinte : s.inte = true) (hpending : s.pending = some v) :
    Dispatches s op ↔ op = v := by
  simp [Dispatches, currentOpcode_of_pending hinte hpending, eq_comm]

/-- A byte of length 1 is fetched as soon as PC is in Memory (R67). -/
theorem dispatches_of_fetch (haccepts : ¬ Accepts s) (hlen : opLength op = 1) :
    Dispatches s op ↔ InMemory s s.pc.toNat ∧ op = Memory.read s.mem s.pc.toNat := by
  rw [Dispatches, currentOpcode_eq_fetch haccepts, fetch_eq]
  constructor
  · rintro ⟨u, hu⟩
    split at hu
    next hin =>
      cases hu
      exact ⟨inBounds_iff.mp hin.1, rfl⟩
    next => cases hu
  · rintro ⟨hin, rfl⟩
    have hlen : opLength (s.byteAt s.pc) = 1 := hlen
    rw [if_pos ⟨inBounds_iff.mpr hin, by omega, by omega⟩]
    exact ⟨_, rfl⟩

/-! ### Full memory and both hooks: no other fault (R260, R262) -/

theorem exec_fault_of_full_of_bound (hfull : s.config.memCapacity = 65536) (hread : s.config.readPortBound = true)
    (hwrite : s.config.writePortBound = true) (h : exec i s = .fault f) : f = .unimplementedOpcode := by
  cases exec_fault h with
  | outOfBounds => exact absurd h (exec_of_full hfull i)
  | noReadPort _ habsent => exact absurd (hread.symm.trans habsent) nofun
  | noWritePort _ habsent => exact absurd (hwrite.symm.trans habsent) nofun
  | unimplemented => rfl

theorem step_fault_of_full_of_bound (hfull : s.config.memCapacity = 65536) (hread : s.config.readPortBound = true)
    (hwrite : s.config.writePortBound = true) (h : step s = .fault f) : f = .unimplementedOpcode := by
  obtain ⟨op, u, hop⟩ := currentOpcode_of_full hfull
  rw [← (currentOpcode_onlyStores hop).config] at hfull hread hwrite
  rw [step, hop] at h
  exact exec_fault_of_full_of_bound hfull hread hwrite h

/-! ### The cycle counts (R298) -/

/-- The counts a Step can return (95_test_vectors.md section 4, property 11). -/
def stepCounts : List Nat := [4, 5, 7, 10, 11, 13, 16, 17, 18]

/-- A next state that `o` answers carries one of the counts. -/
def Counted (o : Host.Outcome State Fault Refusal) : Prop := ∀ t, o = .next t → t.cycles ∈ stepCounts

theorem counted_retire {n : Nat} {r : Except Fault State} (hn : n ∈ stepCounts) : Counted (retire n r) := fun _ h => by
  obtain ⟨u, -, rfl⟩ := retire_next.mp h
  exact hn

/-- An execute phase that cannot fault. -/
theorem counted_retire_ok {n : Nat} {u : State} (hn : n ∈ stepCounts) : Counted (retire n (.ok u)) := counted_retire hn

/-- A count that depends on whether the operand is a register or M. -/
theorem counted_retire_operand {o : Operand} {n k : Nat} {r : Except Fault State} (hn : n ∈ stepCounts)
    (hk : k ∈ stepCounts) : Counted (retire (operandCycles o n k) r) := by
  cases o with
  | reg => exact counted_retire hn
  | m => exact counted_retire hk

theorem movCycles_mem (dst src : Operand) : movCycles dst src ∈ stepCounts := by
  unfold movCycles
  split <;> decide

theorem callIf_counted {cond : Cond} {target : Word} : Counted (callIf cond target s) := by
  unfold callIf
  split <;> exact counted_retire (by decide)

theorem returnIf_counted {cond : Cond} : Counted (returnIf cond s) := by
  unfold returnIf
  split <;> exact counted_retire (by decide)

theorem exec_counted (i : Instr) (s : State) : Counted (exec i s) := by
  cases i with
  -- counts that the operands decide
  | mov dst src => exact counted_retire (movCycles_mem dst src)
  | mvi | inr | dcr | add | adc | sub | sbb | ana | xra | ora | cmp =>
    exact counted_retire_operand (by decide) (by decide)
  -- counts that the condition decides
  | cnz | cz | cnc | cc | cpo | cpe | cp | cm => exact callIf_counted
  | rnz | rz | rnc | rc | rpo | rpe | rp | rm => exact returnIf_counted
  -- HLT and the undefined bytes do not complete
  | hlt | undefined => exact nofun
  -- one count, of an access that may fault
  | stax | ldax | sta | lda | shld | lhld | call | ret | rst | push | pop | xthl | inp | out =>
    exact counted_retire (by decide)
  -- one count, of what cannot fault
  | _ => exact counted_retire_ok (by decide)

theorem step_counted (s : State) : Counted (step s) := fun t h => by
  obtain ⟨op, u, -, hexec⟩ := step_next h
  exact exec_counted _ u t hexec

/-! ### Vectors (R72, R267) -/

theorem decodeInstr_rst (n : Fin 8) (z w : Byte) : decodeInstr (BitVec.ofNat 8 (0xC7 + 8 * n.val)) z w = .rst n := by
  fin_cases n <;> rfl

/-! ### `Load` (R292) -/

theorem State.load_fits {bytes : List Byte} {start : Nat} (hfits : start + bytes.length ≤ s.config.memCapacity) :
    s.load bytes start = .ok (s.setMem (Memory.writeAll s.mem start bytes)) := if_pos hfits

theorem State.load_too_long {bytes : List Byte} {start : Nat} (hlong : s.config.memCapacity < start + bytes.length) :
    s.load bytes start = .error .outOfBoundsAccess := if_neg (by omega)

end Sys2Proof.Machine

namespace Sys2Proof.Claims

open Sys2Proof.Machine State

/-- Settles O11: what an accepting and what a fetching Step dispatches. -/
theorem unimplementedOpcodeIsRaisedByExactlyThirteenBytes :
    Obligations.UnimplementedOpcodeIsRaisedByExactlyThirteenBytes := by
  intro s
  rw [step_unimplemented_iff]
  by_cases haccepts : Accepts s
  · obtain ⟨hinte, hpending⟩ := haccepts
    obtain ⟨v, hv⟩ := Option.ne_none_iff_exists'.mp hpending
    simp [dispatches_of_pending hinte hv, Accepts, hinte, hv, eq_comm]
  · have hmasked (v : Byte) : ¬ (s.inte = true ∧ s.pending = some v) := fun ⟨hinte, hv⟩ =>
      haccepts ⟨hinte, by simp [hv]⟩
    constructor
    · rintro ⟨op, hop, hdispatch⟩
      obtain ⟨hin, rfl⟩ := (dispatches_of_fetch haccepts (opLength_of_mem_faultingBytes op hop)).mp hdispatch
      exact .inr ⟨haccepts, hin, hop⟩
    · rintro (⟨hinte, v, -, hv⟩ | ⟨-, hin, hop⟩)
      · exact absurd ⟨hinte, hv⟩ (hmasked v)
      · exact ⟨_, hop, (dispatches_of_fetch haccepts (opLength_of_mem_faultingBytes _ hop)).mpr ⟨hin, rfl⟩⟩

/-- Settles O13: the only fault with a cause is `UnimplementedOpcode`, and the byte dispatched does not raise it. -/
theorem everyOtherStepCompletes : Obligations.EveryOtherStepCompletes := by
  intro s hfull hread hwrite hvector hfetched
  cases hstep : step s with
  | next t => exact ⟨t, rfl, step_counted s t hstep⟩
  | fault f =>
    cases step_fault_of_full_of_bound hfull hread hwrite hstep
    rcases (unimplementedOpcodeIsRaisedByExactlyThirteenBytes s).mp hstep with ⟨hinte, v, hv, hpending⟩ | ⟨hmasked, -, hop⟩
    · exact absurd hpending (hvector ⟨hinte, by simp [hpending]⟩ v hv)
    · exact absurd hop (hfetched hmasked)
  | refused r => exact absurd hstep (nothingIsRefused.2 s r)

/-- Settles O7: the vector and the latches decode to the very instruction that the Step dispatches. -/
theorem acceptedVectorIsExecuted : Obligations.AcceptedVectorIsExecuted := by
  intro s v i hinte hpending hdecode
  have hdispatched := decode_take_append v s.z s.w []
  rw [List.append_nil, hdecode] at hdispatched
  cases hdispatched
  exact step_of_pending hinte hpending

/-- Settles O8: the vector decodes to RST n, which calls `8 * n` from the state with the slot empty. -/
theorem rstInterruptEntersItsHandler : Obligations.RstInterruptEntersItsHandler := by
  intro s n hwf hinte hpending
  rw [step_of_pending hinte hpending, decodeInstr_rst]
  exact (pchlAndRstTransferControl (s.setPending none) n hwf).2

/-- Settles O25: a `Load` that fits is a write of many bytes, and one that does not is the host's error. -/
theorem loadCopiesItsBytes : Obligations.LoadCopiesItsBytes := by
  refine fun s bytes start hwf => ⟨fun hfits => ⟨_, load_fits hfits, fun k hk => ?_, fun a ha => ?_⟩, fun hlong => ?_⟩
  · rw [Memory.read_writeAll hwf, dif_pos (by omega)]
    simp
  · rw [Memory.read_writeAll hwf, dif_neg (by omega)]
  · have herror := load_too_long hlong
    exact ⟨herror, by rw [hostAct, herror]⟩

end Sys2Proof.Claims
end
